-- ==== Sys2Proof/Word.lean ====
section
/-! DEFINITION. The words of the block: command words (R80), register widths (R30) and read-port words (R61). -/

namespace Sys2Proof

/-- An 8-bit command word (R80), and the width of PWM_MAG (R30). -/
abbrev Byte := BitVec 8

/-- The width of SETPOINT, PULSE_COUNT and TICK_COUNT (R30, D7). -/
abbrev Word16 := BitVec 16

/-- The width of RPM, INTEGRAL, PREV_ERROR and OUTPUT (R30, D7) and of a word of the read port (R61). -/
abbrev Word32 := BitVec 32

end Sys2Proof
end

