-- ==== Sys2Proof/Syntax.lean ====
section
/-! DEFINITION. The commands of PIDSAT-CMD8 (R82): one constructor for each row of spec/opcode_table.json. -/

namespace Sys2Proof

/-- The six legal commands (R82, R83).  The level L of SAMPLE is the only operand of any command (R85), and
the table gives each of its two values a row.  The 250 illegal words are no commands (R83, R222): they have no
constructor, and the step performs their rule. -/
inductive Instr where
  /-- `SAMPLE 0`: one poll of the encoder that reads a low level (R100). -/
  | sample0
  /-- `SAMPLE 1`: one poll of the encoder that reads a high level (R100). -/
  | sample1
  /-- `TICK`: one fire of the fixed-period timer (R120). -/
  | tick
  /-- `EVAL`: the check for a cycle boundary, with the measurement cycle (R122). -/
  | eval
  /-- `INC`: the adjust-up trigger (R200). -/
  | inc
  /-- `DEC`: the adjust-down trigger (R201). -/
  | dec
  deriving DecidableEq, Repr

/-- The command `SAMPLE L` for a level L, true for 1 (R81). -/
def Instr.sample : Bool → Instr
  | false => .sample0
  | true => .sample1

/-- Why a word is illegal: the three cases of R83, in the order in which R89 meets them. -/
inductive IllegalWord where
  /-- `Z = w[7:4]` is not 0b0000. -/
  | nonzeroZ
  /-- `L = w[3]` is 1 and the operation is not SAMPLE. -/
  | strayLevel
  /-- `OP = w[2:0]` is 0b000, 0b110 or 0b111. -/
  | reservedOp
  deriving DecidableEq, Repr

/-- A line of the assembler's source (R87), with the pseudo-instructions (R88). -/
inductive AsmLine where
  /-- An empty line, or one that holds a comment only. -/
  | blank
  | command (i : Instr)
  /-- `POLL l`. -/
  | poll (level : Bool)
  | pulse
  | second
  | cycle
  /-- `.byte 0xNN`: the raw word, which may be illegal. -/
  | byte (w : Byte)
  /-- `.rep n`: the lines up to its `.endr`, n times. -/
  | rep (n : Nat)
  | endr
  deriving DecidableEq, Repr

end Sys2Proof
end

