-- ==== Sys2Proof/WellFormed.lean ====
section
/-! DEFINITION. What is well formed before anything runs: a command word (R83) and the block's parameters (R6, R224).
A term of `Instr` carries no operand field, so none is ill formed (R85): the checks are on the word and on the parameters. -/

namespace Sys2Proof

/-- R83: "A word is legal exactly when it is one of the six words 0x01, 0x09, 0x02, 0x03, 0x04, 0x05."  Written from
that list, not from the decoder. -/
def legalWord (w : Byte) : Bool :=
  w == 0x01 || w == 0x09 || w == 0x02 || w == 0x03 || w == 0x04 || w == 0x05

/-- The implementation parameters as someone asks for them, before they are checked (R6). -/
structure Parameters where
  /-- PPR, encoder pulses per shaft revolution. -/
  ppr : Nat
  /-- TICK_THRESHOLD, ticks that make one measurement cycle. -/
  tickThreshold : Nat
  /-- SATURATE, whether the PID output is clamped. -/
  saturate : Bool
  deriving DecidableEq, Repr

/-- R224, R253: "1 <= PPR <= 65535 and 1 <= TICK_THRESHOLD <= 65535". -/
abbrev Parameters.WellFormed (p : Parameters) : Prop :=
  (1 ≤ p.ppr ∧ p.ppr ≤ 65535) ∧ (1 ≤ p.tickThreshold ∧ p.tickThreshold ≤ 65535)

end Sys2Proof
end

