-- ==== Sys2Proof/Config.lean ====
section
/-! DEFINITION. The configuration of the block (R6, R49), fixed for a run, and the values the spec leaves free. -/

namespace Sys2Proof

/-- A configuration of the block (R6).  One that is out of range "is not a configuration of the block" (R224): the
two range facts are part of the data, so that no such value can be built.  The widths PULSE_W, TICK_W and INT_W of R6
are fixed at 16, 16 and 32, and stand in the types of the registers. -/
structure Config where
  /-- PPR, encoder pulses per shaft revolution. -/
  ppr : Nat
  /-- TICK_THRESHOLD, ticks that make one measurement cycle. -/
  tickThreshold : Nat
  /-- SATURATE: true clamps the control output, false is the source's pass-through (R164). -/
  saturate : Bool
  ppr_range : 1 ≤ ppr ∧ ppr ≤ 65535 := by decide
  tickThreshold_range : 1 ≤ tickThreshold ∧ tickThreshold ≤ 65535 := by decide
  deriving DecidableEq, Repr

/-- The configuration with given parameters, or none where R224 refuses them. -/
def Config.ofParameters (p : Parameters) : Option Config :=
  if h : p.WellFormed then
    some { ppr := p.ppr, tickThreshold := p.tickThreshold, saturate := p.saturate,
           ppr_range := h.1, tickThreshold_range := h.2 }
  else none

/-- A free value: PPR is OPEN (R6, D13), any integer from 1 to 65535; this is PPR - 1.  No body, so nothing can be
proved of it but its range.  DESIGN CHOICE, safe (log entry 1). -/
opaque Config.openPpr : Fin 65535

/-- The configuration of this hardware: PPR is OPEN, TICK_THRESHOLD and SATURATE have the spec's defaults, 488 and true
(R6, "value for this hardware"; log entry 3). -/
def Config.thisHardware : Config :=
  { ppr := Config.openPpr.val + 1
    tickThreshold := 488
    saturate := true
    ppr_range := ⟨Nat.le_add_left 1 _, Config.openPpr.isLt⟩ }

/-- A free value: `draw_8` (R181, D18), "a free 8-bit input `draw_8` of the step", one for each overrange cycle; the
argument counts the draws.  No body, so nothing can be proved of a draw.  DESIGN CHOICE, safe (log entry 4). -/
opaque Config.draw8 : Nat → Byte

end Sys2Proof
end

