-- ==== Sys2Proof/Decode.lean ====
section
/-! DEFINITION. Decoding (R80, R81, R89) and encoding (R80, R82) of the 8-bit command word. -/

namespace Sys2Proof

/-- The field `Z = w[7:4]` (R81). -/
def fieldZ (w : Byte) : BitVec 4 := w.extractLsb' 4 4

/-- The field `L = w[3]` (R81): true for 1. -/
def fieldL (w : Byte) : Bool := w.getLsbD 3

/-- The field `OP = w[2:0]` (R81). -/
def fieldOp (w : Byte) : BitVec 3 := w.extractLsb' 0 3

/-- R89: total decoding, in the order of its pseudocode. -/
def decode (w : Byte) : Except IllegalWord Instr :=
  if fieldZ w ≠ 0b0000#4 then .error .nonzeroZ
  else if fieldOp w = 0b001#3 then .ok (Instr.sample (fieldL w))
  else if fieldL w then .error .strayLevel
  else if fieldOp w = 0b010#3 then .ok .tick
  else if fieldOp w = 0b011#3 then .ok .eval
  else if fieldOp w = 0b100#3 then .ok .inc
  else if fieldOp w = 0b101#3 then .ok .dec
  else .error .reservedOp

/-- The word with Z = 0b0000 and the given fields (R80). -/
def commandWord (level : Bool) (op : BitVec 3) : Byte :=
  0b0000#4 ++ BitVec.ofBool level ++ op

/-- R82: the word of each command. -/
def encode : Instr → Byte
  | .sample0 => commandWord false 0b001#3
  | .sample1 => commandWord true 0b001#3
  | .tick => commandWord false 0b010#3
  | .eval => commandWord false 0b011#3
  | .inc => commandWord false 0b100#3
  | .dec => commandWord false 0b101#3

/-- A command stream decoded word by word, or none where one of its words is illegal.  Every command is one word
(R86), so no length is detected. -/
def decodeStream : List Byte → Option (List Instr)
  | [] => some []
  | w :: ws =>
    match decode w, decodeStream ws with
    | .ok i, some is => some (i :: is)
    | _, _ => none

/-- The one byte that the low `nbits` bits of `w` make, or none where they do not fit the 8 bits of a command (R86). -/
def tableByte (nbits w : Nat) : Option Byte :=
  if w % 2 ^ nbits < 256 then some (BitVec.ofNat 8 (w % 2 ^ nbits)) else none

/-- What the decoder reads from the table's bits. -/
def decodeTableWord (nbits w : Nat) : Option Instr :=
  match tableByte nbits w with
  | some b =>
    match decode b with
    | .ok i => some i
    | .error _ => none
  | none => none

end Sys2Proof
end

