-- ==== Sys2Proof/Machine/State.lean ====
section
/-! DEFINITION. The state of the block: the registers of R30, its configuration (R6, R49), what is presented to it (R66, R68)
and what it answered (R61, R84), all as plain data. -/

namespace Sys2Proof.Machine

/-- Who presents a command (R66).  The fifth agent, reset, presents the reset input (`Event.reset`). -/
inductive Agent where
  /-- "single-threaded cooperative main loop": SAMPLE and EVAL. -/
  | poller
  /-- "tick overflow" interrupt: TICK. -/
  | tickSource
  /-- "edge-trigger A": INC. -/
  | upTrigger
  /-- "edge-trigger B": DEC. -/
  | downTrigger
  deriving DecidableEq, Repr

/-- One element of the total order of commands, resets and reads (R68). -/
inductive Event where
  /-- An agent presents a command word on the command port (R66). -/
  | command (agent : Agent) (word : Byte)
  /-- The reset input (R250). -/
  | reset
  /-- An observer reads the read port at a 4-bit index (R61). -/
  | read (index : BitVec 4)
  deriving DecidableEq, Repr

/-- What the block answers to an event: the response `cyc` to a command (R84), the word of a read (R61), nothing to a
reset or before the first event (log entry 7). -/
inductive Answer where
  | nothing
  | cyc (performed : Bool)
  | word (w : Word32)
  deriving DecidableEq, Repr

/-- The block never stops: "no fault stops it, redirects it or changes a result" (R220).  Its two run-time faults are
the sticky bits `faultIllegal` and `faultMag` of the state (R221), so this type has no constructor, and no step ends in a
fault (log entry 10; safe). -/
inductive Fault where
  deriving DecidableEq, Repr

/-- Why the model gives no next state. -/
inductive Refusal where
  /-- An instruction that has no meaning yet; raised by an arm of exec, by no meaning.  No arm raises it in this model.
  Safe. -/
  | notModelled (mnemonic : String)
  /-- R142, R224: PPR or TICK_THRESHOLD out of range; raised by `powerOn`, before any command runs.  Safe. -/
  | invalidConfiguration
  deriving DecidableEq, Repr

/-- The state of the block.  R30 lists the registers `setpoint` to `faultMag`, and "No other state exists": the other
fields are the model's, and say so. -/
structure State where
  /-- The configuration (R6).  R49: not state; no command and no reset changes it. -/
  config : Config
  /-- SETPOINT, signed (R31). -/
  setpoint : Word16
  /-- PULSE_COUNT, unsigned (R34). -/
  pulseCount : Word16
  /-- TICK_COUNT, unsigned (R35). -/
  tickCount : Word16
  /-- LAST_LEVEL, true for 1 (R36). -/
  lastLevel : Bool
  /-- RPM, unsigned (R37). -/
  rpm : Word32
  /-- INTEGRAL, signed (R38). -/
  integral : Word32
  /-- PREV_ERROR, signed (R38). -/
  prevError : Word32
  /-- OUTPUT, signed (R39). -/
  output : Word32
  /-- PWM_MAG, unsigned (R40). -/
  pwmMag : Byte
  /-- DIR: bit 0 is the forward line, bit 1 the reverse line (R41). -/
  dir : BitVec 2
  /-- OUT_SAT, written by each cycle (R43). -/
  outSat : Bool
  /-- INT_SAT, sticky (R44). -/
  intSat : Bool
  /-- FAULT_ILLEGAL, sticky (R44). -/
  faultIllegal : Bool
  /-- FAULT_MAG, sticky (R44). -/
  faultMag : Bool
  /-- The model's own: how many values of `draw_8` have been drawn (log entry 4). -/
  drawCount : Nat
  /-- The model's own: the events still to come, the next one first (R33, R68; log entry 5). -/
  port : List Event
  /-- The model's own: the answer to the last event (log entry 7). -/
  answer : Answer
  deriving DecidableEq, Repr

/-- R46: the block after reset, in a given configuration, with nothing presented to it. -/
def State.initial (c : Config) : State :=
  { config := c
    setpoint := 0
    pulseCount := 0
    tickCount := 0
    lastLevel := false
    rpm := 0
    integral := 0
    prevError := 0
    output := 0
    pwmMag := 0
    dir := 0b00#2
    outSat := false
    intSat := false
    faultIllegal := false
    faultMag := false
    drawCount := 0
    port := []
    answer := .nothing }

/-- The machine right after reset (R46, R252). -/
def State.reset : State := State.initial Config.thisHardware

end Sys2Proof.Machine
end

