-- ==== Sys2Proof/Machine/Operands.lean ====
section
/-! DEFINITION. The constants of the block (R7, R8), the arithmetic primitives (R12), and how a register's bits are read and
written as a number (R11).  The one operand of the commands, L, is taken from the word by the decoder (R81, R85). -/

namespace Sys2Proof.Machine

/-- SP_STEP, the setpoint adjustment step (R7). -/
def spStep : Int := 25
/-- SP_MIN (R7). -/
def spMin : Int := -255
/-- SP_MAX (R7). -/
def spMax : Int := 255
/-- OUT_MIN, the lower saturation bound of the control output (R7). -/
def outMin : Int := -255
/-- OUT_MAX, the upper saturation bound of the control output (R7). -/
def outMax : Int := 255
/-- MAG_MAX, the largest PWM magnitude (R7). -/
def magMax : Int := 255
/-- RPM_SCALE, seconds per minute (R7). -/
def rpmScale : Nat := 60
/-- KP = KP_NUM / GAIN_DEN = 20/20 = 1 (R8). -/
def kpNum : Int := 20
/-- KI = KI_NUM / GAIN_DEN = 2/20 = 0.1 (R8). -/
def kiNum : Int := 2
/-- KD = KD_NUM / GAIN_DEN = 1/20 = 0.05 (R8). -/
def kdNum : Int := 1
/-- GAIN_DEN, the common denominator of the gains (R8). -/
def gainDen : Int := 20

/-- `clamp(v, lo, hi)` (R12). -/
def clamp (v lo hi : Int) : Int :=
  if v < lo then lo else if v > hi then hi else v

/-- The least value of a signed N-bit register (R11). -/
def signedMin (N : Nat) : Int := -(2 ^ (N - 1))

/-- The greatest value of a signed N-bit register (R11). -/
def signedMax (N : Nat) : Int := 2 ^ (N - 1) - 1

/-- `sat_N(v)`: signed saturation to N bits (R12). -/
def satSigned (N : Nat) (v : Int) : Int := clamp v (signedMin N) (signedMax N)

/-- `wrap_N(v)`: unsigned wrap-around (R12). -/
def wrapUnsigned (N v : Nat) : Nat := v % 2 ^ N

/-- `fdiv(a, b)`: unsigned division, remainder dropped (R12). -/
def fdiv (a b : Nat) : Nat := a / b

/-- `tdiv(a, b) = sign(a) * floor(|a| / |b|)`: division rounding toward zero (R12). -/
def tdiv (a b : Int) : Int := a.sign * ((a.natAbs / b.natAbs : Nat) : Int)

/-- `abs(v)` (R12). -/
def absInt (v : Int) : Int := if v < 0 then -v else v

/-- The value of a signed register (R11). -/
def signedValue {N : Nat} (r : BitVec N) : Int := r.toInt

/-- The value of an unsigned register (R11). -/
def unsignedValue {N : Nat} (r : BitVec N) : Nat := r.toNat

/-- The bits of a signed N-bit register that holds `v` (R11). -/
def signedBits (N : Nat) (v : Int) : BitVec N := BitVec.ofInt N v

/-- The bits of an unsigned N-bit register that holds `v` (R11). -/
def unsignedBits (N v : Nat) : BitVec N := BitVec.ofNat N v

/-- `sext_32(v)` of a signed register (R11). -/
def sext32 {N : Nat} (r : BitVec N) : Word32 := r.signExtend 32

/-- `zext_32(v)` of an unsigned register (R11). -/
def zext32 {N : Nat} (r : BitVec N) : Word32 := r.zeroExtend 32

/-- DIR when both direction lines are cleared (R41). -/
def dirNeutral : BitVec 2 := 0b00#2
/-- DIR with the forward line set (R41). -/
def dirForward : BitVec 2 := 0b01#2
/-- DIR with the reverse line set (R41). -/
def dirReverse : BitVec 2 := 0b10#2

end Sys2Proof.Machine
end

