-- ==== Sys2Proof/Machine/Flags.lean ====
section
/-! DEFINITION. The flags: the detector (R121), the saturation flags (R43, R161, R165), and the STATUS and ACTUATOR words (R42, R61). -/

namespace Sys2Proof.Machine

/-- R121: `BOUNDARY = (TICK_COUNT >= TICK_THRESHOLD)`, combinational. -/
def boundary (s : State) : Bool := decide (s.config.tickThreshold ≤ unsignedValue s.tickCount)

/-- R43, R165: OUT_SAT after a cycle, `abs(raw) > 255`. -/
def outputSaturates (raw : Int) : Bool := decide (absInt raw > outMax)

/-- R161: whether the exact sum leaves the 32-bit accumulator. -/
def integralSaturates (sum : Int) : Bool := decide (sum < signedMin 32 ∨ sum > signedMax 32)

/-- R61, index 0x8: `{26'b0, FAULT_MAG, FAULT_ILLEGAL, INT_SAT, OUT_SAT, BOUNDARY, LAST_LEVEL}` (R42). -/
def statusWord (s : State) : Word32 :=
  0#26 ++ BitVec.ofBool s.faultMag ++ BitVec.ofBool s.faultIllegal ++ BitVec.ofBool s.intSat ++
    BitVec.ofBool s.outSat ++ BitVec.ofBool (boundary s) ++ BitVec.ofBool s.lastLevel

/-- R61, index 0x7: `{22'b0, DIR[1:0], PWM_MAG[7:0]}`. -/
def actuatorWord (s : State) : Word32 := 0#22 ++ s.dir ++ s.pwmMag

end Sys2Proof.Machine
end

