-- ==== Sys2Proof/Machine/Ops.lean ====
section
/-! DEFINITION. The operations the commands share: the response (R84), raising a fault (R221), the read port (R61), reset (R250),
an illegal word (R222), taking the next event from the port (R68), power-on with given parameters (R224). -/

namespace Sys2Proof.Machine

/-- `respond cyc = b` (R84). -/
def respond (b : Bool) (s : State) : State := { s with answer := .cyc b }

/-- The two run-time faults, by name (R221, C13). -/
inductive FaultBit where
  /-- FAULT_ILLEGAL, STATUS bit 4. -/
  | illegal
  /-- FAULT_MAG, STATUS bit 5. -/
  | mag
  deriving DecidableEq, Repr

/-- `raise Fault(k)` (R221): the whole of taking an exception on this hardware.  It sets the fault's sticky bit and "does
nothing else"; there is no trap entry and no return (R229, R230). -/
def raiseFault (k : FaultBit) (s : State) : State :=
  match k with
  | .illegal => { s with faultIllegal := true }
  | .mag => { s with faultMag := true }

/-- `RegRead(idx)` (R61); a reserved index returns 0 (R62). -/
def regRead (idx : BitVec 4) (s : State) : Word32 :=
  match idx.toNat with
  | 0x0 => sext32 s.setpoint
  | 0x1 => zext32 s.pulseCount
  | 0x2 => zext32 s.tickCount
  | 0x3 => s.rpm
  | 0x4 => sext32 s.integral
  | 0x5 => sext32 s.prevError
  | 0x6 => sext32 s.output
  | 0x7 => actuatorWord s
  | 0x8 => statusWord s
  | _ => 0x00000000#32

/-- A read of the read port (R61): it answers the word and has no other effect (R63). -/
def performRead (idx : BitVec 4) (s : State) : State := { s with answer := .word (regRead idx s) }

/-- Reset (R250): every register at its reset value, in one step.  The configuration stays (R49), so do the events still to
come, and the draws made are not made again (log entries 4 and 8). -/
def performReset (s : State) : State :=
  { State.initial s.config with drawCount := s.drawCount, port := s.port }

/-- R222: an illegal word sets FAULT_ILLEGAL, changes no other register and responds cyc = 0. -/
def rejectWord (s : State) : State := respond false (raiseFault .illegal s)

/-- The block with other events still to come (R68). -/
def State.withPort (s : State) (p : List Event) : State := { s with port := p }

/-- The next event of the total order, and the state in which it is consumed (R68, R72). -/
def nextEvent (s : State) : Option (Event × State) :=
  match s.port with
  | [] => none
  | e :: rest => some (e, s.withPort rest)

/-- An agent presents a command word, before everything else that waits (R66). -/
def present (a : Agent) (w : Byte) (s : State) : State := s.withPort (.command a w :: s.port)

/-- R224, R253: the block is powered on with given parameters; a model refuses a bad configuration "before any command
runs". -/
def powerOn (p : Parameters) : Host.Outcome State Fault Refusal :=
  match Config.ofParameters p with
  | some c => .next (State.initial c)
  | none => .refused .invalidConfiguration

/-- The magnitude output (R40). -/
def State.magnitudeOutput (s : State) : Byte := s.pwmMag

/-- The forward line, `DIR[0]` (R41). -/
def State.forwardLine (s : State) : Bool := s.dir.getLsbD 0

/-- The reverse line, `DIR[1]` (R41). -/
def State.reverseLine (s : State) : Bool := s.dir.getLsbD 1

end Sys2Proof.Machine
end

