-- ==== Sys2Proof/Machine/EdgeCounter.lean ====
section
/-! DEFINITION. The edge-count accumulator: SAMPLE (R100). -/

namespace Sys2Proof.Machine

/-- R36, R100: a rising edge is a level 1 where the last level was 0. -/
def risingEdge (last level : Bool) : Bool := level && !last

/-- `SAMPLE L` (R100): count a rising edge, keep the level, respond cyc = 0. -/
def sampleLevel (level : Bool) (s : State) : State :=
  respond false
    { s with
      pulseCount :=
        if risingEdge s.lastLevel level then
          unsignedBits 16 (wrapUnsigned 16 (unsignedValue s.pulseCount + 1))
        else s.pulseCount
      lastLevel := level }

/-- SAMPLE 0 (R100). -/
def execSample0 (s : State) : Host.Outcome State Fault Refusal := .next (sampleLevel false s)

/-- SAMPLE 1 (R100). -/
def execSample1 (s : State) : Host.Outcome State Fault Refusal := .next (sampleLevel true s)

end Sys2Proof.Machine
end

