-- ==== Sys2Proof/Machine/Setpoint.lean ====
section
/-! DEFINITION. The setpoint register: INC (R200) and DEC (R201). -/

namespace Sys2Proof.Machine

/-- Form the sum, then clamp it (R200, R201), and respond cyc = 0. -/
def adjustSetpoint (delta : Int) (s : State) : State :=
  respond false
    { s with setpoint := signedBits 16 (clamp (signedValue s.setpoint + delta) spMin spMax) }

/-- INC (R200). -/
def execInc (s : State) : Host.Outcome State Fault Refusal := .next (adjustSetpoint spStep s)

/-- DEC (R201). -/
def execDec (s : State) : Host.Outcome State Fault Refusal := .next (adjustSetpoint (-spStep) s)

end Sys2Proof.Machine
end

