-- ==== Sys2Proof/Machine/Actuator.lean ====
section
/-! DEFINITION. The PWM magnitude and direction mapper (R180, R181). -/

namespace Sys2Proof.Machine

/-- The result of `Actuate`: the PWM_MAG value, the DIR value, and whether the magnitude is out of range (R180). -/
structure Actuation where
  mag : Byte
  dir : BitVec 2
  overrange : Bool
  deriving DecidableEq, Repr

/-- `Actuate(v)` (R180).  Out of range the magnitude is `draw`, the step's `draw_8` (R181); the mapper never clamps. -/
def actuate (draw : Byte) (v : Int) : Actuation :=
  if v > 0 then
    if v ≤ magMax then ⟨unsignedBits 8 v.toNat, dirForward, false⟩ else ⟨draw, dirForward, true⟩
  else if v < 0 then
    if -v ≤ magMax then ⟨unsignedBits 8 (-v).toNat, dirReverse, false⟩ else ⟨draw, dirReverse, true⟩
  else ⟨unsignedBits 8 0, dirNeutral, false⟩

end Sys2Proof.Machine
end

