-- ==== Sys2Proof/Machine/Pid.lean ====
section
/-! DEFINITION. The PID controller and its output saturation (R160 to R165). -/

namespace Sys2Proof.Machine

/-- `PidError(sp, r) = sp - r` (R160), exact. -/
def pidError (sp : Int) (r : Nat) : Int := sp - r

/-- `PidIntegral(i0, e)` (R161): the new integral, and whether it saturated.  No anti-windup (R166). -/
def pidIntegral (i0 e : Int) : Int × Bool := (satSigned 32 (i0 + e), integralSaturates (i0 + e))

/-- `PidRaw(e, i, e_prev)` (R162): the gains' exact sum, truncated once, toward zero. -/
def pidRaw (e i ePrev : Int) : Int := tdiv (kpNum * e + kiNum * i + kdNum * (e - ePrev)) gainDen

/-- `Saturate(raw)` (R164). -/
def saturate (c : Config) (raw : Int) : Int := if c.saturate then clamp raw outMin outMax else raw

end Sys2Proof.Machine
end

