-- ==== Sys2Proof/Machine/SpeedEstimator.lean ====
section
/-! DEFINITION. The RPM estimator (R140). -/

namespace Sys2Proof.Machine

/-- `RpmOf(p) = fdiv(p * 60, PPR)` (R140); the product is exact. -/
def rpmOf (c : Config) (p : Nat) : Nat := fdiv (p * rpmScale) c.ppr

end Sys2Proof.Machine
end

