-- ==== Sys2Proof/Machine/TimeBase.lean ====
section
/-! DEFINITION. The tick counter and the measurement cycle: TICK (R120) and EVAL (R122). -/

namespace Sys2Proof.Machine

/-- TICK (R120): count one tick, wrapping (D9); it never starts a cycle. -/
def execTick (s : State) : Host.Outcome State Fault Refusal :=
  .next (respond false
    { s with tickCount := unsignedBits 16 (wrapUnsigned 16 (unsignedValue s.tickCount + 1)) })

/-- The local `r` of a cycle (R122): the speed from the snapshot of PULSE_COUNT. -/
def cycleRpm (s : State) : Nat := rpmOf s.config (unsignedValue s.pulseCount)

/-- The local `e` of a cycle (R122). -/
def cycleError (s : State) : Int := pidError (signedValue s.setpoint) (cycleRpm s)

/-- The locals `(i, isat)` of a cycle (R122). -/
def cycleIntegral (s : State) : Int × Bool := pidIntegral (signedValue s.integral) (cycleError s)

/-- The local `raw` of a cycle (R122): from the new integral and the old PREV_ERROR. -/
def cycleRaw (s : State) : Int := pidRaw (cycleError s) (cycleIntegral s).1 (signedValue s.prevError)

/-- The local `v` of a cycle (R122). -/
def cycleOutput (s : State) : Int := saturate s.config (cycleRaw s)

/-- The locals `(m, d, over)` of a cycle (R122), with the draw that R181 leaves free. -/
def cycleActuation (s : State) : Actuation := actuate (Config.draw8 s.drawCount) (cycleOutput s)

/-- What an overrange magnitude adds to a cycle (R181, R223): FAULT_MAG is raised, and one value of `draw_8` is used up. -/
def recordOverrange (overrange : Bool) (s : State) : State :=
  if overrange then raiseFault .mag { s with drawCount := s.drawCount + 1 } else s

/-- One measurement cycle (R122): every value is computed from the state before, and all writes land together (R13). -/
def performCycle (s : State) : State :=
  respond true (recordOverrange (cycleActuation s).overrange
    { s with
      pulseCount := unsignedBits 16 0
      tickCount := unsignedBits 16 0
      rpm := unsignedBits 32 (cycleRpm s)
      integral := signedBits 32 (cycleIntegral s).1
      prevError := signedBits 32 (cycleError s)
      intSat := s.intSat || (cycleIntegral s).2
      output := signedBits 32 (cycleOutput s)
      outSat := outputSaturates (cycleRaw s)
      pwmMag := (cycleActuation s).mag
      dir := (cycleActuation s).dir })

/-- EVAL (R122): with the detector asserted one measurement cycle, else no register changes (R123). -/
def execEval (s : State) : Host.Outcome State Fault Refusal :=
  if boundary s then .next (performCycle s) else .next (respond false s)

end Sys2Proof.Machine
end

