-- ==== Sys2Proof/Machine/Dispatch.lean ====
section
/-! DEFINITION. One arm per command. -/

namespace Sys2Proof.Machine

def exec (i : Instr) (s : State) : Host.Outcome State Fault Refusal :=
  match i with
  | .sample0 => Sys2Proof.Machine.execSample0 s
  | .sample1 => Sys2Proof.Machine.execSample1 s
  | .tick => Sys2Proof.Machine.execTick s
  | .eval => Sys2Proof.Machine.execEval s
  | .inc => Sys2Proof.Machine.execInc s
  | .dec => Sys2Proof.Machine.execDec s

end Sys2Proof.Machine
end

