-- ==== Sys2Proof/Machine/Step.lean ====
section
/-! DEFINITION. One step: the next event of the total order is performed whole (R67, R68). -/

namespace Sys2Proof.Machine

/-- A presented command word (R66): a command is executed, an illegal word is rejected (R89, R222), whoever presents it
(R231). -/
def performWord (w : Byte) (s : State) : Host.Outcome State Fault Refusal :=
  match decode w with
  | .ok i => exec i s
  | .error _ => .next (rejectWord s)

/-- One step.  With nothing presented the block waits, ready for the next command, and nothing changes (R236; log entry 6). -/
def step (s : State) : Host.Outcome State Fault Refusal :=
  match nextEvent s with
  | none => .next s
  | some (.command _ w, s') => performWord w s'
  | some (.reset, s') => .next (performReset s')
  | some (.read idx, s') => .next (performRead idx s')

/-- The word of a table row presented as the next event (log entry 5), by the poller: the block does not look at who
presents it (R231).  Every command is one 8-bit word (R86), so eight bits are presented. -/
def State.withFetchWord (s : State) (nbits w : Nat) : State :=
  present .poller (BitVec.ofNat 8 (w % 2 ^ nbits)) s

end Sys2Proof.Machine
end

