-- ==== Sys2Proof/Machine/Assembler.lean ====
section
/-! DEFINITION. The assembler's syntax (R87) and the pseudo-instructions (R88): from source text to the command words that are
presented. -/

namespace Sys2Proof.Machine

/-- The words of one line, with the pseudo-instructions expanded (R88); SECOND takes TICK_THRESHOLD ticks.  A `.rep` or
`.endr` line has no words of its own. -/
def lineWords (c : Config) : AsmLine → List Byte
  | .blank => []
  | .command i => [encode i]
  | .poll l => [encode (Instr.sample l), encode .eval]
  | .pulse => [encode .sample1, encode .sample0]
  | .second => List.replicate c.tickThreshold (encode .tick)
  | .cycle => List.replicate c.tickThreshold (encode .tick) ++ [encode .eval]
  | .byte w => [w]
  | .rep _ => []
  | .endr => []

/-- `w` repeated `n` times, end to end. -/
def repeatWords (n : Nat) (ws : List Byte) : List Byte := (List.replicate n ws).flatten

/-- The words of a list of lines (R87).  `blocks` holds, for each `.rep` not yet closed, its count and the words before it;
`acc` the words of the innermost block so far.  None for an `.endr` with nothing open, or a `.rep` left open. -/
def assembleFrom (c : Config) : List (Nat × List Byte) → List Byte → List AsmLine → Option (List Byte)
  | [], acc, [] => some acc
  | _ :: _, _, [] => none
  | blocks, acc, .rep n :: ls => assembleFrom c ((n, acc) :: blocks) [] ls
  | (n, before) :: blocks, acc, .endr :: ls => assembleFrom c blocks (before ++ repeatWords n acc) ls
  | [], _, .endr :: _ => none
  | blocks, acc, l :: ls => assembleFrom c blocks (acc ++ lineWords c l) ls

/-- The words of a program (R87). -/
def assemble (c : Config) (ls : List AsmLine) : Option (List Byte) := assembleFrom c [] [] ls

/-- The text before a `;` (R87: a comment runs to the end of the line). -/
def stripComment (cs : List Char) : List Char := cs.takeWhile (fun ch => !(ch == ';'))

/-- The pieces of a text between the characters that `sep` holds of, in order; `cur` is the piece read so far, backwards. -/
def splitChars (sep : Char → Bool) : List Char → List Char → List (List Char)
  | cur, [] => [cur.reverse]
  | cur, ch :: cs => if sep ch then cur.reverse :: splitChars sep [] cs else splitChars sep (ch :: cur) cs

/-- The tokens of a line: its non-empty pieces between blanks (log entry 14). -/
def tokens (cs : List Char) : List (List Char) :=
  (splitChars (fun ch => ch == ' ' || ch == '\t' || ch == '\r') [] cs).filter (fun t => !t.isEmpty)

/-- The value of a digit in the given base, at most 16 (log entry 14: both cases of a hexadecimal digit). -/
def digitValue (base : Nat) (ch : Char) : Option Nat :=
  let v := if '0' ≤ ch ∧ ch ≤ '9' then ch.toNat - '0'.toNat
    else if 'A' ≤ ch ∧ ch ≤ 'F' then ch.toNat - 'A'.toNat + 10
    else if 'a' ≤ ch ∧ ch ≤ 'f' then ch.toNat - 'a'.toNat + 10
    else base
  if v < base then some v else none

/-- The number that a list of digits spells after the value `acc`. -/
def digitsValue (base : Nat) : Nat → List Char → Option Nat
  | acc, [] => some acc
  | acc, ch :: cs =>
    match digitValue base ch with
    | some d => digitsValue base (acc * base + d) cs
    | none => none

/-- The count of a `.rep`: one or more decimal digits (log entry 14). -/
def parseCount : List Char → Option Nat
  | [] => none
  | ch :: cs => digitsValue 10 0 (ch :: cs)

/-- The word of a `.byte`: `0x` and two hexadecimal digits. -/
def parseWord : List Char → Option Byte
  | ['0', 'x', h, l] =>
    match digitsValue 16 0 [h, l] with
    | some v => some (BitVec.ofNat 8 v)
    | none => none
  | _ => none

/-- The level of SAMPLE or POLL: `0` or `1` (R87). -/
def parseLevel : List Char → Option Bool
  | ['0'] => some false
  | ['1'] => some true
  | _ => none

/-- A token without operand. -/
def parseWordless (t : List Char) : Option AsmLine :=
  if t == ['T', 'I', 'C', 'K'] then some (.command .tick)
  else if t == ['E', 'V', 'A', 'L'] then some (.command .eval)
  else if t == ['I', 'N', 'C'] then some (.command .inc)
  else if t == ['D', 'E', 'C'] then some (.command .dec)
  else if t == ['P', 'U', 'L', 'S', 'E'] then some .pulse
  else if t == ['S', 'E', 'C', 'O', 'N', 'D'] then some .second
  else if t == ['C', 'Y', 'C', 'L', 'E'] then some .cycle
  else if t == ['.', 'e', 'n', 'd', 'r'] then some .endr
  else none

/-- A token and its operand. -/
def parseWithOperand (t arg : List Char) : Option AsmLine :=
  if t == ['S', 'A', 'M', 'P', 'L', 'E'] then (parseLevel arg).map (fun l => .command (Instr.sample l))
  else if t == ['P', 'O', 'L', 'L'] then (parseLevel arg).map .poll
  else if t == ['.', 'b', 'y', 't', 'e'] then (parseWord arg).map .byte
  else if t == ['.', 'r', 'e', 'p'] then (parseCount arg).map .rep
  else none

/-- One line of source (R87), or none where it is no line of the syntax. -/
def parseLine (cs : List Char) : Option AsmLine :=
  match tokens (stripComment cs) with
  | [] => some .blank
  | [t] => parseWordless t
  | [t, arg] => parseWithOperand t arg
  | _ => none

/-- Every line, or none where one of them is no line of the syntax. -/
def parseLines : List (List Char) → Option (List AsmLine)
  | [] => some []
  | cs :: css =>
    match parseLine cs, parseLines css with
    | some l, some ls => some (l :: ls)
    | _, _ => none

/-- The words of a source text, one command per line (R87), in a given configuration (SECOND depends on it, R88). -/
def assembleText (c : Config) (text : List Char) : Option (List Byte) :=
  match parseLines (splitChars (fun ch => ch == '\n') [] text) with
  | some ls => assemble c ls
  | none => none

/-- The words of a stream as events presented by one agent, in order (R33: a program is a list of commands). -/
def presentAll (a : Agent) (ws : List Byte) : List Event := ws.map (Event.command a)

end Sys2Proof.Machine
end

