-- ==== Sys2Proof/Safety.lean ====
section
/-! DEFINITION. The terms claims are stated in: faulted runs (R226), the invariant of reachable states (R47, R168, R183), performing a
list of events (R68), the agents' streams and their commands (R66, R68), counting edges and ticks (R101, R125). -/

namespace Sys2Proof.Machine

/-- R226: "a run is faulted when FAULT_ILLEGAL or FAULT_MAG is 1". -/
def State.faulted (s : State) : Bool := s.faultIllegal || s.faultMag

/-- A value that INC and DEC reach from 0 (R47, R202): in [-255, 255], and 0, 5 or 20 mod 25. -/
abbrev ReachableSetpoint (v : Int) : Prop :=
  (-255 ≤ v ∧ v ≤ 255) ∧ (v % 25 = 0 ∨ v % 25 = 5 ∨ v % 25 = 20)

/-- The invariant of reachable states: the five clauses of R47, RPM's range (R30), and what R183 and R226 say of the magnitude
when FAULT_MAG is 0.  R47 names the setpoint `SETPOINT_c` of the last cycle, which no register keeps: here PREV_ERROR + RPM
is some reachable setpoint. -/
structure State.Inv (s : State) : Prop where
  setpoint : ReachableSetpoint s.setpoint.toInt
  output_range : s.config.saturate = true → -255 ≤ s.output.toInt ∧ s.output.toInt ≤ 255
  mag_saturate : s.config.saturate = true → s.pwmMag.toNat = s.output.toInt.natAbs
  dir_neutral : s.dir = 0b00#2 ↔ s.output.toInt = 0
  dir_forward : s.dir = 0b01#2 ↔ 0 < s.output.toInt
  dir_reverse : s.dir = 0b10#2 ↔ s.output.toInt < 0
  dir_legal : s.dir ≠ 0b11#2
  prevError : ReachableSetpoint (s.prevError.toInt + s.rpm.toNat)
  rpm_range : s.rpm.toNat ≤ 3932100
  no_faultMag : s.config.saturate = true → s.faultMag = false
  mag_no_fault : s.faultMag = false → s.pwmMag.toNat = s.output.toInt.natAbs

/-- The outcome of performing `es`, in order, before the events that already wait (R68). -/
def performEvents (es : List Event) (s : State) : Host.Outcome State Fault Refusal :=
  Host.Core.run Sys2Proof.core es.length (s.withPort (es ++ s.port))

/-- The state after the first `n` of the events `es` (R68); no step of the model stops, so there is one. -/
def stateAfter (n : Nat) (es : List Event) (s : State) : State :=
  match Host.Core.run Sys2Proof.core n (s.withPort (es ++ s.port)) with
  | .next t => t
  | _ => s

/-- No command of `es` performs a cycle when they are performed from `s`: none responds cyc = 1 (R84). -/
def NoCycle (es : List Event) (s : State) : Prop :=
  ∀ n < es.length, (stateAfter (n + 1) es s).answer ≠ .cyc true

/-- The sum of `f` over the states in which a cycle-performing EVAL among `es` finds the block (R70). -/
def cycleTotal (f : State → Nat) (es : List Event) (s : State) : Nat :=
  ((List.range es.length).map (fun n =>
    if (stateAfter (n + 1) es s).answer = .cyc true then f (stateAfter n es s) else 0)).sum

/-- The agent that presents a command (R66).  "How the block is used", and the block does not enforce it (R231). -/
def presenter : Instr → Agent
  | .sample0 => .poller
  | .sample1 => .poller
  | .tick => .tickSource
  | .eval => .poller
  | .inc => .upTrigger
  | .dec => .downTrigger

/-- Commands, each presented by its agent. -/
def commandEvents (is : List Instr) : List Event :=
  is.map (fun i => Event.command (presenter i) (encode i))

/-- An event with the agent that presents it forgotten (R231). -/
def withoutAgent : Event → Event
  | .command _ w => .command .poller w
  | .reset => .reset
  | .read idx => .read idx

/-- The words that one agent presents, in its order (R68). -/
def streamOf (a : Agent) (es : List Event) : List Byte :=
  es.filterMap (fun e => match e with
    | .command b w => if b = a then some w else none
    | .reset => none
    | .read _ => none)

/-- R68: `es` is one interleaving of the agents' command streams.  A model admits every one. -/
def Interleaving (streams : Agent → List Byte) (es : List Event) : Prop :=
  ∀ a, streamOf a es = streams a

/-- The levels that the SAMPLE words among the events give, in order (R101); 0x01 is SAMPLE 0 and 0x09 SAMPLE 1. -/
def levelsOf (es : List Event) : List Bool :=
  es.filterMap (fun e => match e with
    | .command _ w => if w = 0x01#8 then some false else if w = 0x09#8 then some true else none
    | .reset => none
    | .read _ => none)

/-- The adjacent pairs (previous level, this level) equal to (0, 1) (R101); `last` is the level before the sequence. -/
def risingPairs : Bool → List Bool → Nat
  | _, [] => 0
  | last, l :: ls => (if last = false ∧ l = true then 1 else 0) + risingPairs l ls

/-- The TICK words among the events (R125); TICK is 0x02. -/
def ticksIn (es : List Event) : Nat :=
  es.countP (fun e => match e with
    | .command _ w => w == 0x02#8
    | .reset => false
    | .read _ => false)

/-- `m` measurement cycles with no pulse: TICK_THRESHOLD ticks and an EVAL, `m` times (R88 `CYCLE`). -/
def cycleEvents (c : Config) (m : Nat) : List Event :=
  (List.replicate m
    (List.replicate c.tickThreshold (Event.command .tickSource 0x02#8) ++ [Event.command .poller 0x03#8])).flatten

/-- The next event of a state is a cycle-performing EVAL: the word 0x03 with TICK_COUNT at the threshold or above (R122). -/
def nextPerformsCycle (s : State) : Prop :=
  (∃ a rest, s.port = .command a 0x03#8 :: rest) ∧ s.config.tickThreshold ≤ s.tickCount.toNat

/-- The next event of a state is reset (R250). -/
def nextIsReset (s : State) : Prop := ∃ rest, s.port = .reset :: rest

end Sys2Proof.Machine
end

