-- ==== Sys2Proof/Certificates/Slice0/Obligations.lean ====
section
/-! DEFINITION. The statements for the provers, from the spec's numbered rules. -/

open Sys2Proof Sys2Proof.Machine

/-! ### Encoding (30_encoding.md) -/

/-- R82: each word of the opcode map decodes to its command, and the words of the reserved operations are illegal. -/
def Obligations.DecodeFollowsTheOpcodeMap : Prop :=
  decode 0x01#8 = .ok .sample0 ∧ decode 0x09#8 = .ok .sample1 ∧ decode 0x02#8 = .ok .tick ∧
  decode 0x03#8 = .ok .eval ∧ decode 0x04#8 = .ok .inc ∧ decode 0x05#8 = .ok .dec ∧
  ∀ w ∈ [0x00#8, 0x08#8, 0x06#8, 0x0E#8, 0x07#8, 0x0F#8], ∀ i, decode w ≠ .ok i

/-- R83: the legal words are the six listed ones, the others are 250 and fall under the rule's three cases, and an illegal
word raises FAULT_ILLEGAL and changes nothing else. -/
def Obligations.OnlySixWordsAreLegal : Prop :=
  (∀ w : Byte, (∃ i, decode w = .ok i) ↔
    w = 0x01 ∨ w = 0x09 ∨ w = 0x02 ∨ w = 0x03 ∨ w = 0x04 ∨ w = 0x05) ∧
  ((List.range 256).filter (fun n => !legalWord (BitVec.ofNat 8 n))).length = 250 ∧
  (∀ w : Byte, (∃ r, decode w = .error r) ↔
    w.toNat / 16 ≠ 0 ∨ (w.toNat % 8 = 0 ∨ w.toNat % 8 = 6 ∨ w.toNat % 8 = 7) ∨
      (w.toNat / 8 % 2 = 1 ∧ w.toNat % 8 ≠ 1)) ∧
  ∀ (s : State) (a : Agent) (w : Byte) (rest : List Event), s.port = .command a w :: rest →
    legalWord w = false →
    step s = .next { s with port := rest, faultIllegal := true, answer := .cyc false }

/-- R89: decoding is total and follows the order of the rule's pseudocode, here with the fields as quotients and
remainders of the word. -/
def Obligations.DecodeFollowsThePseudocode : Prop :=
  ∀ w : Byte,
    (w.toNat / 16 ≠ 0 → ∃ r, decode w = .error r) ∧
    (w.toNat / 16 = 0 → w.toNat % 8 = 1 →
      decode w = .ok (if w.toNat / 8 % 2 = 1 then .sample1 else .sample0)) ∧
    (w.toNat / 16 = 0 → w.toNat % 8 ≠ 1 → w.toNat / 8 % 2 = 1 → ∃ r, decode w = .error r) ∧
    (w.toNat = 2 → decode w = .ok .tick) ∧ (w.toNat = 3 → decode w = .ok .eval) ∧
    (w.toNat = 4 → decode w = .ok .inc) ∧ (w.toNat = 5 → decode w = .ok .dec) ∧
    (w.toNat = 0 ∨ w.toNat = 6 ∨ w.toNat = 7 → ∃ r, decode w = .error r)

/-- Decoding a command's word gives the command, and only its word decodes to it. -/
def Obligations.DecodeInvertsEncode : Prop :=
  ∀ (i : Instr) (w : Byte), decode w = .ok i ↔ w = encode i

/-- For streams: the words of any list of commands decode to that list, and no other stream of words does (R86, R89). -/
def Obligations.StreamsDecodeToTheirCommands : Prop :=
  ∀ (ws : List Byte) (is : List Instr), decodeStream ws = some is ↔ ws = is.map encode

/-- R88: the four pseudo-instructions and their expansions. -/
def Obligations.PseudoInstructionsExpand : Prop :=
  ∀ (c : Config) (l : Bool),
    assemble c [.poll l] = some [if l then 0x09#8 else 0x01#8, 0x03#8] ∧
    assemble c [.pulse] = some [0x09#8, 0x01#8] ∧
    assemble c [.second] = some (List.replicate c.tickThreshold 0x02#8) ∧
    assemble c [.cycle] = some (List.replicate c.tickThreshold 0x02#8 ++ [0x03#8])

/-- R87: lines are assembled one after the other, and `.rep n` to `.endr` repeats the enclosed lines n times. -/
def Obligations.AssemblerRepeatsBlocks : Prop :=
  ∀ (c : Config) (ls ks : List AsmLine) (ws us : List Byte) (n : Nat),
    assemble c ls = some ws → assemble c ks = some us →
    assemble c (ls ++ ks) = some (ws ++ us) ∧
    assemble c (.rep n :: (ls ++ [.endr])) = some (List.replicate n ws).flatten

/-! ### The command port and the step (20_memory.md, 60_exceptions.md) -/

/-- When the word that is presented next decodes to a command, the step is that command executed on the state in which the
word is consumed, whoever presents it. -/
def Obligations.StepRunsTheDecodedCommand : Prop :=
  ∀ (s : State) (a : Agent) (w : Byte) (rest : List Event) (i : Instr),
    s.port = .command a w :: rest → decode w = .ok i → step s = exec i (s.withPort rest)

/-- R222: an illegal word sets FAULT_ILLEGAL, changes no other register and responds cyc = 0. -/
def Obligations.IllegalWordSetsFaultIllegal : Prop :=
  ∀ (s : State) (a : Agent) (w : Byte) (rest : List Event) (r : IllegalWord),
    s.port = .command a w :: rest → decode w = .error r →
    step s = .next { s with port := rest, faultIllegal := true, answer := .cyc false }

/-- The model's choice (log entry 6): with nothing presented a step changes nothing. -/
def Obligations.IdleStepChangesNothing : Prop :=
  ∀ s : State, s.port = [] → step s = .next s

/-- R231: the block does not check which agent presented a command: two lists of events that differ only in who presents
their words have the same outcome. -/
def Obligations.PresenterMakesNoDifference : Prop :=
  ∀ (es fs : List Event) (s : State), es.map withoutAgent = fs.map withoutAgent →
    performEvents es s = performEvents fs s

/-- R220, R236: no fault stops the block; from every state a step answers a next state. -/
def Obligations.EveryStepAnswersNext : Prop :=
  ∀ s : State, ∃ t, step s = .next t

/-- R33: the position in the stream advances by one event per step and never jumps. -/
def Obligations.PositionAdvancesByOne : Prop :=
  ∀ (n : Nat) (s : State), ∃ t, Host.Core.run Sys2Proof.core n s = .next t ∧ t.port = s.port.drop n

/-- R68: every event sees the effect of every event before it and of none after it: what comes later does not change the
outcome of a prefix, and a list is performed as its parts, one after the other. -/
def Obligations.EventsSeeOnlyEarlierEvents : Prop :=
  (∀ (es : List Event) (s : State), ∃ t : State, ∀ rest : List Event,
    Host.Core.run Sys2Proof.core es.length (s.withPort (es ++ rest)) = .next (t.withPort rest)) ∧
  ∀ (es fs : List Event) (s t : State), performEvents es s = .next t →
    performEvents (es ++ fs) s = performEvents fs t

/-- R68 for agents that write different registers: two interleavings of the same streams, the poller's of SAMPLEs, the tick
source's of TICKs and one trigger's, the up trigger's of INCs or the down trigger's of DECs, leave the same state. -/
def Obligations.InterleavingsOfIndependentAgentsAgree : Prop :=
  ∀ (es fs : List Event) (s : State),
    (∀ e ∈ es, ∃ a w, e = .command a w) → (∀ e ∈ fs, ∃ a w, e = .command a w) →
    Interleaving (fun a => streamOf a es) fs →
    (∀ w ∈ streamOf .poller es, w = 0x01#8 ∨ w = 0x09#8) → (∀ w ∈ streamOf .tickSource es, w = 0x02#8) →
    ((∀ w ∈ streamOf .upTrigger es, w = 0x04#8) ∧ streamOf .downTrigger es = [] ∨
      streamOf .upTrigger es = [] ∧ ∀ w ∈ streamOf .downTrigger es, w = 0x05#8) →
    performEvents es s = performEvents fs s

/-- Commands of different agents that write different registers may be swapped: all but EVAL, and but INC with DEC (R203). -/
def Obligations.IndependentCommandsCommute : Prop :=
  ∀ (i j : Instr) (s : State), i ≠ .eval → j ≠ .eval → presenter i ≠ presenter j →
    ¬(i = .inc ∧ j = .dec) → ¬(i = .dec ∧ j = .inc) →
    ∃ t t' u, exec i s = .next t ∧ exec j t = .next u ∧ exec j s = .next t' ∧ exec i t' = .next u

/-- R84: the response cyc is 1 only for an EVAL that performed a cycle, and 0 for every other word, legal or illegal. -/
def Obligations.CycOnlyForAPerformedCycle : Prop :=
  ∀ (s : State) (a : Agent) (w : Byte) (rest : List Event), s.port = .command a w :: rest →
    ∃ t, step s = .next t ∧
      t.answer = .cyc (decide (w = 0x03#8 ∧ s.config.tickThreshold ≤ s.tickCount.toNat))

/-! ### SAMPLE (40_edge_counter.md) -/

/-- R100: SAMPLE 0 and SAMPLE 1, whole: the words, PULSE_COUNT, LAST_LEVEL, the response, and nothing else changed. -/
def Obligations.SampleCountsARisingEdge : Prop :=
  decode 0x01#8 = .ok .sample0 ∧ decode 0x09#8 = .ok .sample1 ∧
  ∀ (s : State) (l : Bool), ∃ t, exec (if l then .sample1 else .sample0) s = .next t ∧
    t.pulseCount.toNat =
      (if l = true ∧ s.lastLevel = false then (s.pulseCount.toNat + 1) % 65536 else s.pulseCount.toNat) ∧
    t.lastLevel = l ∧ t.answer = .cyc false ∧
    t = { s with pulseCount := t.pulseCount, lastLevel := t.lastLevel, answer := t.answer }

/-- R101: over any events without a reset or a performed cycle, PULSE_COUNT grows, modulo 2^16, by the pairs (0, 1) of
adjacent levels, the first pair with LAST_LEVEL from before. -/
def Obligations.PulseCountGrowsByRisingPairs : Prop :=
  ∀ (es : List Event) (s : State), Event.reset ∉ es → NoCycle es s →
    ∃ t, performEvents es s = .next t ∧
      t.pulseCount.toNat = (s.pulseCount.toNat + risingPairs s.lastLevel (levelsOf es)) % 65536 ∧
      t.lastLevel = (levelsOf es).getLastD s.lastLevel

/-- R102: N clean pulses, each sampled at least once high and at least once low, are counted N times. -/
def Obligations.CleanPulsesAreAllCounted : Prop :=
  ∀ (es : List Event) (s : State) (pulses : List (Nat × Nat)), Event.reset ∉ es → NoCycle es s →
    levelsOf es = pulses.flatMap (fun p => List.replicate (p.1 + 1) true ++ List.replicate (p.2 + 1) false) →
    s.pulseCount = 0 → s.lastLevel = false → pulses.length < 65536 →
    ∃ t, performEvents es s = .next t ∧ t.pulseCount.toNat = pulses.length

/-- R103, R34: PULSE_COUNT changes only by a SAMPLE 1 on a low last level, by a performed cycle or by reset. -/
def Obligations.OnlyEdgesAndCyclesChangePulseCount : Prop :=
  ∀ s t : State, step s = .next t → t.pulseCount ≠ s.pulseCount →
    ((∃ a rest, s.port = .command a 0x09#8 :: rest) ∧ s.lastLevel = false) ∨
    nextPerformsCycle s ∨ nextIsReset s

/-! ### TICK and the detector (41_time_base.md) -/

/-- R120: TICK, whole: the word, TICK_COUNT with its wrap, the response, and nothing else changed. -/
def Obligations.TickCountsOneTick : Prop :=
  decode 0x02#8 = .ok .tick ∧
  ∀ s : State, ∃ t, exec .tick s = .next t ∧ t.tickCount.toNat = (s.tickCount.toNat + 1) % 65536 ∧
    t.answer = .cyc false ∧ t = { s with tickCount := t.tickCount, answer := t.answer }

/-- R121: the detector is TICK_COUNT >= TICK_THRESHOLD; STATUS bit 1 shows it and EVAL reads it.  The threshold's default is
488 (R6); that State.reset carries the default is the model's choice (log entry 3, DESIGN CHOICE). -/
def Obligations.DetectorComparesWithTheThreshold : Prop :=
  State.reset.config.tickThreshold = 488 ∧
  ∀ s : State,
    (regRead 0x8#4 s).getLsbD 1 = decide (s.tickCount.toNat ≥ s.config.tickThreshold) ∧
    ∃ t, exec .eval s = .next t ∧ t.answer = .cyc (decide (s.tickCount.toNat ≥ s.config.tickThreshold))

/-- R125: over any events without a reset or a performed cycle TICK_COUNT grows, modulo 2^16, by the TICKs; so from a
cycle's end at TICK_COUNT = 0 the detector is asserted only after TICK_THRESHOLD ticks. -/
def Obligations.CycleTakesAtLeastTheThreshold : Prop :=
  ∀ (es : List Event) (s : State), Event.reset ∉ es → NoCycle es s →
    ∃ t, performEvents es s = .next t ∧
      t.tickCount.toNat = (s.tickCount.toNat + ticksIn es) % 65536 ∧
      (s.tickCount = 0 → boundary t = true → s.config.tickThreshold ≤ ticksIn es)

/-! ### EVAL (41_time_base.md to 44_actuator.md) -/

/-- R123: EVALs that find the detector deasserted change no register and respond cyc = 0, however many there are. -/
def Obligations.EvalWithoutBoundaryChangesNothing : Prop :=
  ∀ (s : State) (n : Nat), s.tickCount.toNat < s.config.tickThreshold →
    exec .eval s = .next { s with answer := .cyc false } ∧
    performEvents (List.replicate (n + 1) (.command .poller 0x03#8)) s = .next { s with answer := .cyc false }

/-- R122: EVAL, whole, both ways.  The magnitude of an overrange cycle is not stated: it is a free value (R181, log entry 4). -/
def Obligations.EvalPerformsOneMeasurementCycle : Prop :=
  decode 0x03#8 = .ok .eval ∧
  ∀ s : State,
    (s.tickCount.toNat < s.config.tickThreshold → exec .eval s = .next { s with answer := .cyc false }) ∧
    (s.config.tickThreshold ≤ s.tickCount.toNat →
      ∃ t, exec .eval s = .next t ∧
        let r : Nat := s.pulseCount.toNat * 60 / s.config.ppr
        let e : Int := s.setpoint.toInt - r
        let sum : Int := s.integral.toInt + e
        let i : Int := max (-2147483648) (min 2147483647 sum)
        let raw : Int := (20 * e + 2 * i + (e - s.prevError.toInt)).tdiv 20
        let v : Int := if s.config.saturate then max (-255) (min 255 raw) else raw
        t.pulseCount = 0 ∧ t.tickCount = 0 ∧ t.rpm.toNat = r ∧
        t.integral.toInt = i ∧ t.prevError.toInt = e ∧
        t.intSat = (s.intSat || decide (sum < -2147483648 ∨ 2147483647 < sum)) ∧
        t.output.toInt = v ∧ t.outSat = decide (255 < raw.natAbs) ∧
        t.dir = (if 0 < v then 0b01#2 else if v < 0 then 0b10#2 else 0b00#2) ∧
        (v.natAbs ≤ 255 → t.pwmMag.toNat = v.natAbs ∧ t.faultMag = s.faultMag) ∧
        (255 < v.natAbs → t.faultMag = true) ∧
        t.answer = .cyc true ∧
        t = { s with
          pulseCount := t.pulseCount, tickCount := t.tickCount, rpm := t.rpm, integral := t.integral,
          prevError := t.prevError, output := t.output, pwmMag := t.pwmMag, dir := t.dir, outSat := t.outSat,
          intSat := t.intSat, faultMag := t.faultMag, drawCount := t.drawCount, answer := t.answer })

/-- R124: a cycle resets TICK_COUNT to 0, whatever it held above the threshold; so a second EVAL performs no cycle. -/
def Obligations.CycleDiscardsExtraTicks : Prop :=
  ∀ s : State, s.config.tickThreshold ≤ s.tickCount.toNat →
    ∃ t, exec .eval s = .next t ∧ t.tickCount = 0 ∧ exec .eval t = .next { t with answer := .cyc false }

/-- R70: every rising edge and every TICK is counted in exactly one cycle, or in none that is finished: what the cycles
read, and what the counters still hold, add up to what was there and what came (while the counters do not wrap). -/
def Obligations.EveryEdgeAndTickIsCountedOnce : Prop :=
  ∀ (es : List Event) (s : State), Event.reset ∉ es →
    (s.pulseCount.toNat + risingPairs s.lastLevel (levelsOf es) < 65536 →
      cycleTotal (fun u => u.pulseCount.toNat) es s + (stateAfter es.length es s).pulseCount.toNat =
        s.pulseCount.toNat + risingPairs s.lastLevel (levelsOf es)) ∧
    (s.tickCount.toNat + ticksIn es < 65536 →
      cycleTotal (fun u => u.tickCount.toNat) es s + (stateAfter es.length es s).tickCount.toNat =
        s.tickCount.toNat + ticksIn es)

/-- R140: RpmOf, its largest value, and that EVAL writes its result to RPM. -/
def Obligations.RpmIsPulsesTimesSixtyOverPpr : Prop :=
  (∀ (c : Config) (p : Nat), rpmOf c p = p * 60 / c.ppr ∧ (p ≤ 65535 → rpmOf c p ≤ 3932100)) ∧
  (∀ c : Config, c.ppr = 1 → rpmOf c 65535 = 3932100) ∧
  ∀ s : State, s.config.tickThreshold ≤ s.tickCount.toNat →
    ∃ t, exec .eval s = .next t ∧ t.rpm.toNat = s.pulseCount.toNat * 60 / s.config.ppr

/-- R141: truncation and floor agree, RpmOf is monotone, PPR more pulses are 60 more RPM, and with PPR = 20 it is 3p. -/
def Obligations.RpmIsMonotoneAndSteps : Prop :=
  ∀ (c : Config) (p q : Nat),
    ((p * 60 : Nat) : Int).tdiv c.ppr = ((p * 60 : Nat) : Int).fdiv c.ppr ∧
    (p ≤ q → rpmOf c p ≤ rpmOf c q) ∧ rpmOf c (p + c.ppr) = rpmOf c p + 60 ∧
    (c.ppr = 20 → rpmOf c p = 3 * p)

/-- R160: the error is exactly SETPOINT - RPM, EVAL writes it to PREV_ERROR, and for a legal setpoint it lies in
[-3932355, 255]. -/
def Obligations.ErrorIsSetpointMinusRpm : Prop :=
  (∀ (sp : Int) (r : Nat), pidError sp r = sp - r ∧
    (-255 ≤ sp → sp ≤ 255 → r ≤ 3932100 → -3932355 ≤ pidError sp r ∧ pidError sp r ≤ 255)) ∧
  ∀ s : State, s.config.tickThreshold ≤ s.tickCount.toNat →
    ∃ t, exec .eval s = .next t ∧ t.prevError.toInt = s.setpoint.toInt - t.rpm.toNat

/-- R161: the error is added to the integral, which saturates at its 32-bit bounds and sets INT_SAT exactly then; a zero
error leaves it, and an error of the opposite sign releases it. -/
def Obligations.IntegralAccumulatesAndSaturates : Prop :=
  (∀ i0 e : Int, pidIntegral i0 e =
    (max (-2147483648) (min 2147483647 (i0 + e)), decide (i0 + e < -2147483648 ∨ 2147483647 < i0 + e))) ∧
  ∀ s : State, s.config.tickThreshold ≤ s.tickCount.toNat →
    ∃ t, exec .eval s = .next t ∧
      t.integral.toInt = max (-2147483648) (min 2147483647 (s.integral.toInt + t.prevError.toInt)) ∧
      (t.intSat = true ↔ s.intSat = true ∨ s.integral.toInt + t.prevError.toInt < -2147483648 ∨
        2147483647 < s.integral.toInt + t.prevError.toInt)

/-- R8: the gains are exactly 1, 0.1 and 0.05, and the output is their sum over the rationals, truncated once, toward zero. -/
def Obligations.RawOutputIsTheExactSumTruncated : Prop :=
  (kpNum : ℚ) / (gainDen : ℚ) = 1 ∧ (kiNum : ℚ) / (gainDen : ℚ) = 1 / 10 ∧
  (kdNum : ℚ) / (gainDen : ℚ) = 5 / 100 ∧
  ∀ e i ePrev : Int,
    let q : ℚ := 1 * (e : ℚ) + (1 / 10) * (i : ℚ) + (5 / 100) * ((e : ℚ) - (ePrev : ℚ))
    pidRaw e i ePrev = if 0 ≤ q then ⌊q⌋ else ⌈q⌉

/-- R164, R165: Saturate, that EVAL writes its result to OUTPUT, and OUT_SAT in both settings of SATURATE; raw is formed
from the new integral and the old PREV_ERROR (R162). -/
def Obligations.OutputSaturatesAndOutSatReports : Prop :=
  (∀ (c : Config) (raw : Int), saturate c raw = if c.saturate then max (-255) (min 255 raw) else raw) ∧
  ∀ s : State, s.config.tickThreshold ≤ s.tickCount.toNat →
    ∃ t, exec .eval s = .next t ∧
      let raw : Int := (20 * t.prevError.toInt + 2 * t.integral.toInt +
        (t.prevError.toInt - s.prevError.toInt)).tdiv 20
      t.output.toInt = (if s.config.saturate then max (-255) (min 255 raw) else raw) ∧
      t.outSat = decide (255 < raw.natAbs)

/-- R166: no anti-windup.  Over m cycles without a pulse RPM is 0, and the integral moves by SETPOINT at each cycle until it
reaches its 32-bit bound, though the output saturates. -/
def Obligations.IntegralWindsUpWithoutPulses : Prop :=
  ∀ (s : State) (m : Nat), s.tickCount = 0 → s.pulseCount = 0 →
    ∃ t, performEvents (cycleEvents s.config m) s = .next t ∧
      t.integral.toInt = max (-2147483648) (min 2147483647 (s.integral.toInt + m * s.setpoint.toInt)) ∧
      t.setpoint = s.setpoint ∧ t.tickCount = 0 ∧ t.pulseCount = 0 ∧ (0 < m → t.rpm = 0)

/-- R163, R251: INTEGRAL and PREV_ERROR persist until the next cycle-performing EVAL or reset. -/
def Obligations.ControllerStatePersists : Prop :=
  ∀ s t : State, step s = .next t → (t.integral ≠ s.integral ∨ t.prevError ≠ s.prevError) →
    nextPerformsCycle s ∨ nextIsReset s

/-- R168: the ranges of the values of a cycle, in every state that meets the invariant. -/
def Obligations.CycleValuesStayInRange : Prop :=
  ∀ s : State, s.Inv →
    let e := cycleError s
    let d := e - s.prevError.toInt
    let i := (cycleIntegral s).1
    let n := 20 * e + 2 * i + d
    (-3932355 ≤ e ∧ e ≤ 255) ∧ (-3932610 ≤ d ∧ d ≤ 3932610) ∧ (-2147483648 ≤ i ∧ i ≤ 2147483647) ∧
    (-4377547006 ≤ n ∧ n ≤ 4298905004) ∧ cycleRaw s = n.tdiv 20 ∧
    (-218877350 ≤ cycleRaw s ∧ cycleRaw s ≤ 214945250)

/-- R180: Actuate, by the sign and the size of v; above 255 the magnitude is the draw, whatever it is (R181). -/
def Obligations.ActuateMapsSignAndMagnitude : Prop :=
  ∀ (draw : Byte) (v : Int),
    (actuate draw v).dir = (if 0 < v then 0b01#2 else if v < 0 then 0b10#2 else 0b00#2) ∧
    (actuate draw v).overrange = decide (255 < v.natAbs) ∧
    (v.natAbs ≤ 255 → (actuate draw v).mag.toNat = v.natAbs) ∧
    (255 < v.natAbs → (actuate draw v).mag = draw)

/-- R223: with SATURATE = false a cycle whose raw value lies outside [-255, 255] completes: FAULT_MAG is set, OUTPUT holds
v, DIR follows its sign.  PWM_MAG is a free value, and not stated (R181, log entry 4). -/
def Obligations.OverrangeRaisesFaultMag : Prop :=
  ∀ s : State, s.config.tickThreshold ≤ s.tickCount.toNat → 255 < (cycleRaw s).natAbs →
    ∃ t, exec .eval s = .next t ∧ t.answer = .cyc true ∧ t.outSat = true ∧
      (s.config.saturate = false →
        t.faultMag = true ∧ t.output.toInt = cycleRaw s ∧
        t.dir = (if 0 < cycleRaw s then 0b01#2 else 0b10#2)) ∧
      (s.config.saturate = true → t.faultMag = s.faultMag)

/-- R182: the actuator outputs are PWM_MAG and the two bits of DIR, and they change only at a cycle-performing EVAL and at
reset. -/
def Obligations.ActuatorOutputsHoldBetweenCycles : Prop :=
  (∀ s : State, s.magnitudeOutput = s.pwmMag ∧ s.forwardLine = s.dir.getLsbD 0 ∧
    s.reverseLine = s.dir.getLsbD 1) ∧
  ∀ s t : State, step s = .next t →
    (t.magnitudeOutput ≠ s.magnitudeOutput ∨ t.forwardLine ≠ s.forwardLine ∨ t.reverseLine ≠ s.reverseLine ∨
      t.pwmMag ≠ s.pwmMag ∨ t.dir ≠ s.dir) →
    nextPerformsCycle s ∨ nextIsReset s

/-- R183: with SATURATE = true Actuate never reports overrange, no step sets FAULT_MAG, and after every cycle PWM_MAG is the absolute value of OUTPUT and
DIR its sign. -/
def Obligations.SaturationKeepsFaultMagClear : Prop :=
  ∀ s t : State, s.config.saturate = true → step s = .next t →
    (cycleActuation s).overrange = false ∧ (s.faultMag = false → t.faultMag = false) ∧
    (nextPerformsCycle s →
      t.pwmMag.toNat = t.output.toInt.natAbs ∧
      t.dir = (if 0 < t.output.toInt then 0b01#2 else if t.output.toInt < 0 then 0b10#2 else 0b00#2))

/-! ### INC and DEC (45_setpoint.md) -/

/-- R200: INC, whole: the word, SETPOINT, the response, and nothing else changed. -/
def Obligations.IncRaisesTheSetpoint : Prop :=
  decode 0x04#8 = .ok .inc ∧
  ∀ s : State, ∃ t, exec .inc s = .next t ∧
    t.setpoint.toInt = max (-255) (min 255 (s.setpoint.toInt + 25)) ∧
    t.answer = .cyc false ∧ t = { s with setpoint := t.setpoint, answer := t.answer }

/-- R201: DEC, whole: the word, SETPOINT, the response, and nothing else changed. -/
def Obligations.DecLowersTheSetpoint : Prop :=
  decode 0x05#8 = .ok .dec ∧
  ∀ s : State, ∃ t, exec .dec s = .next t ∧
    t.setpoint.toInt = max (-255) (min 255 (s.setpoint.toInt - 25)) ∧
    t.answer = .cyc false ∧ t = { s with setpoint := t.setpoint, answer := t.answer }

/-- R202: from SETPOINT = 0, INC and DEC reach exactly the values in [-255, 255] that are 0, 5 or 20 modulo 25. -/
def Obligations.ReachableSetpointsAreExact : Prop :=
  ∀ (s : State) (v : Int), s.setpoint = 0 →
    ((∃ (is : List Instr) (t : State), (∀ i ∈ is, i = .inc ∨ i = .dec) ∧
        performEvents (commandEvents is) s = .next t ∧ t.setpoint.toInt = v) ↔
      (-255 ≤ v ∧ v ≤ 255) ∧ (v % 25 = 0 ∨ v % 25 = 5 ∨ v % 25 = 20))

/-- R202's example for any start and number: n INCs clamp at 255. -/
def Obligations.RepeatedIncClampsAtTheMaximum : Prop :=
  ∀ (s : State) (n : Nat), -255 ≤ s.setpoint.toInt → s.setpoint.toInt ≤ 255 →
    ∃ t, performEvents (commandEvents (List.replicate n .inc)) s = .next t ∧
      t.setpoint.toInt = min 255 (s.setpoint.toInt + 25 * n)

/-- R203: the order of INC and DEC matters only near a bound: both orders give the old setpoint when it is in
[-230, 230]; above, INC then DEC gives 230 and DEC then INC the old value; below, the other way round with -230. -/
def Obligations.IncDecOrderMattersOnlyNearABound : Prop :=
  ∀ s : State, -255 ≤ s.setpoint.toInt → s.setpoint.toInt ≤ 255 →
    ∃ t u : State,
      performEvents (commandEvents [.inc, .dec]) s = .next t ∧
      performEvents (commandEvents [.dec, .inc]) s = .next u ∧
      t.setpoint.toInt = min 230 s.setpoint.toInt ∧ u.setpoint.toInt = max (-230) s.setpoint.toInt

/-! ### The read port and the flags (10_state.md, 20_memory.md) -/

/-- R61, R62: every index of the read port; a signed register's word is its value in 32-bit two's complement, and a
reserved index reads 0. -/
def Obligations.ReadPortReturnsTheRegisters : Prop :=
  ∀ s : State,
    (regRead 0x0#4 s).toInt = s.setpoint.toInt ∧ (regRead 0x1#4 s).toNat = s.pulseCount.toNat ∧
    (regRead 0x2#4 s).toNat = s.tickCount.toNat ∧ (regRead 0x3#4 s).toNat = s.rpm.toNat ∧
    (regRead 0x4#4 s).toInt = s.integral.toInt ∧ (regRead 0x5#4 s).toInt = s.prevError.toInt ∧
    (regRead 0x6#4 s).toInt = s.output.toInt ∧
    (regRead 0x7#4 s).toNat = s.dir.toNat * 256 + s.pwmMag.toNat ∧
    (regRead 0x8#4 s).toNat = 32 * s.faultMag.toNat + 16 * s.faultIllegal.toNat + 8 * s.intSat.toNat +
      4 * s.outSat.toNat + 2 * (boundary s).toNat + s.lastLevel.toNat ∧
    ∀ idx : BitVec 4, 9 ≤ idx.toNat → regRead idx s = 0

/-- R63: a read changes no register and is not a command; two reads with no command between them return the same word. -/
def Obligations.ReadHasNoSideEffect : Prop :=
  ∀ (s : State) (idx : BitVec 4) (rest : List Event), s.port = .read idx :: .read idx :: rest →
    ∃ t u, step s = .next t ∧ t = { s with port := .read idx :: rest, answer := .word (regRead idx s) } ∧
      step t = .next u ∧ u = { s with port := rest, answer := .word (regRead idx s) }

/-- R44, R251: no step but reset clears INT_SAT, FAULT_ILLEGAL or FAULT_MAG. -/
def Obligations.OnlyResetClearsStickyBits : Prop :=
  ∀ s t : State, step s = .next t →
    (s.intSat = true ∧ t.intSat = false ∨ s.faultIllegal = true ∧ t.faultIllegal = false ∨
      s.faultMag = true ∧ t.faultMag = false) → nextIsReset s

/-- R30, R32: each register is written only by the commands its row names, and no command touches the configuration,
FAULT_ILLEGAL or the events that wait. -/
def Obligations.OnlyTheNamedCommandsWriteARegister : Prop :=
  ∀ (i : Instr) (s : State), ∃ t, exec i s = .next t ∧
    (t.setpoint ≠ s.setpoint → i = .inc ∨ i = .dec) ∧
    (t.pulseCount ≠ s.pulseCount → i = .sample1 ∨ i = .eval) ∧
    (t.tickCount ≠ s.tickCount → i = .tick ∨ i = .eval) ∧
    (t.lastLevel ≠ s.lastLevel → i = .sample0 ∨ i = .sample1) ∧
    (t.rpm ≠ s.rpm ∨ t.integral ≠ s.integral ∨ t.prevError ≠ s.prevError ∨ t.output ≠ s.output ∨
      t.pwmMag ≠ s.pwmMag ∨ t.dir ≠ s.dir ∨ t.outSat ≠ s.outSat ∨ t.intSat ≠ s.intSat ∨
      t.faultMag ≠ s.faultMag → i = .eval) ∧
    t.faultIllegal = s.faultIllegal ∧ t.config = s.config ∧ t.port = s.port

/-- R45, R37: no command's result depends on RPM, OUTPUT, PWM_MAG, DIR or a saturation or fault flag: two states that agree
on the other registers agree on them after any command, and on the response. -/
def Obligations.CommandsDoNotReadOutputsOrFlags : Prop :=
  ∀ (i : Instr) (s s' : State),
    s'.config = s.config → s'.setpoint = s.setpoint → s'.pulseCount = s.pulseCount →
    s'.tickCount = s.tickCount → s'.lastLevel = s.lastLevel → s'.integral = s.integral →
    s'.prevError = s.prevError →
    ∃ t t', exec i s = .next t ∧ exec i s' = .next t' ∧
      t'.setpoint = t.setpoint ∧ t'.pulseCount = t.pulseCount ∧ t'.tickCount = t.tickCount ∧
      t'.lastLevel = t.lastLevel ∧ t'.integral = t.integral ∧ t'.prevError = t.prevError ∧
      t'.answer = t.answer ∧
      (t.answer = .cyc true → t'.rpm = t.rpm ∧ t'.output = t.output ∧ t'.dir = t.dir ∧ t'.outSat = t.outSat)

/-! ### Reset, configuration and the invariant (10_state.md, 60_exceptions.md, 70_reset_and_hazards.md) -/

/-- R46: the registers after reset. -/
def Obligations.ResetValuesOfTheRegisters : Prop :=
  State.reset.setpoint = 0 ∧ State.reset.pulseCount = 0 ∧ State.reset.tickCount = 0 ∧
  State.reset.lastLevel = false ∧ State.reset.rpm = 0 ∧ State.reset.integral = 0 ∧
  State.reset.prevError = 0 ∧ State.reset.output = 0 ∧ State.reset.pwmMag = 0 ∧ State.reset.dir = 0b00#2 ∧
  State.reset.outSat = false ∧ State.reset.intSat = false ∧ State.reset.faultIllegal = false ∧
  State.reset.faultMag = false

/-- R250: the reset event sets every register to its reset value in one step, and changes no parameter; power-on leaves the
same registers.  The model's choices here: the later events stay in the port (log entry 8, DEDUCED); at power-on nothing is
presented (log entry 5), the draw counter is 0 (log entry 4) and there is no answer (log entry 7), each a DESIGN CHOICE. -/
def Obligations.ResetEventSetsEveryRegister : Prop :=
  (∀ (c : Config) (s : State), powerOn ⟨c.ppr, c.tickThreshold, c.saturate⟩ =
    .next { performReset { s with config := c } with port := [], drawCount := 0 }) ∧
  ∀ (s : State) (rest : List Event), s.port = .reset :: rest →
    ∃ t, step s = .next t ∧
      t.setpoint = 0 ∧ t.pulseCount = 0 ∧ t.tickCount = 0 ∧ t.lastLevel = false ∧ t.rpm = 0 ∧
      t.integral = 0 ∧ t.prevError = 0 ∧ t.output = 0 ∧ t.pwmMag = 0 ∧ t.dir = 0b00#2 ∧ t.outSat = false ∧
      t.intSat = false ∧ t.faultIllegal = false ∧ t.faultMag = false ∧ t.config = s.config ∧ t.port = rest

/-- R252: from reset until the first cycle-performing EVAL the actuator outputs read neutral with magnitude 0. -/
def Obligations.OutputsAreNeutralAfterReset : Prop :=
  ∀ (es : List Event) (s : State), NoCycle (.reset :: es) s →
    ∃ t, performEvents (.reset :: es) s = .next t ∧
      t.magnitudeOutput = 0 ∧ t.forwardLine = false ∧ t.reverseLine = false

/-- R49: no command and no reset changes a parameter. -/
def Obligations.ConfigurationNeverChanges : Prop :=
  ∀ s t : State, step s = .next t → t.config = s.config

/-- R224, R142: a configuration with PPR or TICK_THRESHOLD out of range is refused, before any command runs; any other is
powered on in the reset state. -/
def Obligations.BadConfigurationsAreRefused : Prop :=
  ∀ p : Parameters,
    (p.ppr < 1 ∨ 65535 < p.ppr ∨ p.tickThreshold < 1 ∨ 65535 < p.tickThreshold →
      powerOn p = .refused .invalidConfiguration) ∧
    (1 ≤ p.ppr → p.ppr ≤ 65535 → 1 ≤ p.tickThreshold → p.tickThreshold ≤ 65535 →
      ∃ c : Config, c.ppr = p.ppr ∧ c.tickThreshold = p.tickThreshold ∧ c.saturate = p.saturate ∧
        powerOn p = .next (State.initial c))

/-- R47 holds at reset. -/
def Obligations.ResetMeetsTheInvariant : Prop := State.reset.Inv

/-- R47: every step keeps the invariant of reachable states. -/
def Obligations.StepKeepsTheInvariant : Prop :=
  ∀ s t : State, s.Inv → step s = .next t → t.Inv
end

