-- ==== Sys2Proof/Laws/Arith.lean ====
section
/-! SUPPORT. The arithmetic primitives (R12) in the terms of core Lean, and registers that hold the value written to them (R11). -/

namespace Sys2Proof.Machine

theorem clamp_eq_max_min {v lo hi : Int} (h : lo ≤ hi) : clamp v lo hi = max lo (min hi v) := by
  unfold clamp; split <;> [skip; split] <;> omega

theorem clamp_bounds {v lo hi : Int} (h : lo ≤ hi) : lo ≤ clamp v lo hi ∧ clamp v lo hi ≤ hi := by
  rw [clamp_eq_max_min h]; omega

theorem satSigned_32 (v : Int) : satSigned 32 v = max (-2147483648) (min 2147483647 v) :=
  clamp_eq_max_min (by decide)

theorem integralSaturates_iff (sum : Int) :
    integralSaturates sum = true ↔ sum < -2147483648 ∨ 2147483647 < sum := by
  simp [integralSaturates, signedMin, signedMax]

theorem tdiv_eq_int_tdiv (a b : Int) (h : 0 < b) : tdiv a b = a.tdiv b := by
  obtain ⟨n, rfl⟩ := Int.eq_ofNat_of_zero_le h.le
  rcases Int.natAbs_eq a with ha | ha <;> rw [ha] <;> rcases Nat.eq_zero_or_pos a.natAbs with h0 | h0
  · simp [h0, tdiv]
  · rw [tdiv, Int.sign_natCast_of_ne_zero (by omega), one_mul, Int.natAbs_natCast, Int.natAbs_natCast,
      ← Int.ofNat_tdiv]
  · simp [h0, tdiv]
  · rw [tdiv, Int.sign_neg, Int.sign_natCast_of_ne_zero (by omega), Int.neg_tdiv, Int.natAbs_neg,
      Int.natAbs_natCast, Int.natAbs_natCast, ← Int.ofNat_tdiv]
    simp

theorem absInt_eq_natAbs (v : Int) : absInt v = v.natAbs := by
  unfold absInt; split <;> omega

theorem outputSaturates_iff (raw : Int) : outputSaturates raw = true ↔ 255 < raw.natAbs := by
  simp only [outputSaturates, outMax, decide_eq_true_eq, absInt_eq_natAbs, gt_iff_lt]; omega

theorem word16_toInt_bounds (r : Word16) : -32768 ≤ r.toInt ∧ r.toInt ≤ 32767 := by
  have h := BitVec.toInt_lt (x := r); have h' := BitVec.le_toInt r; norm_num at h h'; omega

theorem word32_toInt_bounds (r : Word32) : -2147483648 ≤ r.toInt ∧ r.toInt ≤ 2147483647 := by
  have h := BitVec.toInt_lt (x := r); have h' := BitVec.le_toInt r; norm_num at h h'; omega

theorem toInt_signedBits_16 {v : Int} (lo : -32768 ≤ v) (hi : v ≤ 32767) : (signedBits 16 v).toInt = v := by
  rw [signedBits, BitVec.toInt_ofInt]; exact Int.bmod_eq_of_le (by norm_num; omega) (by norm_num; omega)

theorem toInt_signedBits_32 {v : Int} (lo : -2147483648 ≤ v) (hi : v ≤ 2147483647) :
    (signedBits 32 v).toInt = v := by
  rw [signedBits, BitVec.toInt_ofInt]; exact Int.bmod_eq_of_le (by norm_num; omega) (by norm_num; omega)

theorem toNat_unsignedBits {N v : Nat} (h : v < 2 ^ N) : (unsignedBits N v).toNat = v := by
  simp [unsignedBits, Nat.mod_eq_of_lt h]

/-- A counter incremented (R100, R120). -/
theorem toNat_increment (r : Word16) :
    (unsignedBits 16 (wrapUnsigned 16 (unsignedValue r + 1))).toNat = (r.toNat + 1) % 65536 := by
  simp [unsignedBits, wrapUnsigned, unsignedValue]

/-- R140: the product is exact, and the quotient drops the remainder. -/
theorem rpmOf_eq (c : Config) (p : Nat) : rpmOf c p = p * 60 / c.ppr := rfl

/-- R140: the result is at most 3932100. -/
theorem rpmOf_le (c : Config) {p : Nat} (h : p ≤ 65535) : rpmOf c p ≤ 3932100 := by
  rw [rpmOf_eq]; exact (Nat.div_le_self _ _).trans (by omega)

end Sys2Proof.Machine
end

