-- ==== Sys2Proof/Laws/Assembler.lean ====
section
/-! SUPPORT. What the assembler does with one line (R87). -/

namespace Sys2Proof.Machine

/-- A line that is no `.rep` and no `.endr` adds its words to the innermost block. -/
theorem assembleFrom_line (c : Config) (blocks : List (Nat × List Byte)) (acc : List Byte) (l : AsmLine)
    (ls : List AsmLine) (hrep : ∀ n, l ≠ .rep n) (hend : l ≠ .endr) :
    assembleFrom c blocks acc (l :: ls) = assembleFrom c blocks (acc ++ lineWords c l) ls := by
  cases l with
  | rep n => exact absurd rfl (hrep n)
  | endr => exact absurd rfl hend
  | _ => cases blocks <;> rfl

theorem assembleFrom_rep (c : Config) (blocks : List (Nat × List Byte)) (acc : List Byte) (n : Nat)
    (ls : List AsmLine) :
    assembleFrom c blocks acc (.rep n :: ls) = assembleFrom c ((n, acc) :: blocks) [] ls := by
  cases blocks <;> rfl

theorem assembleFrom_endr (c : Config) (blocks : List (Nat × List Byte)) (before acc : List Byte) (n : Nat)
    (ls : List AsmLine) :
    assembleFrom c ((n, before) :: blocks) acc (.endr :: ls) =
      assembleFrom c blocks (before ++ repeatWords n acc) ls := rfl

end Sys2Proof.Machine
end

