-- ==== Sys2Proof/Laws/State.lean ====
section
/-! SUPPORT. What each update of State leaves in each field: one lemma per field per update, for simp. -/

namespace Sys2Proof.Machine

variable (s : State)

@[simp] theorem withPort_config (p : List Event) : (s.withPort p).config = s.config := rfl
@[simp] theorem withPort_setpoint (p : List Event) : (s.withPort p).setpoint = s.setpoint := rfl
@[simp] theorem withPort_pulseCount (p : List Event) : (s.withPort p).pulseCount = s.pulseCount := rfl
@[simp] theorem withPort_tickCount (p : List Event) : (s.withPort p).tickCount = s.tickCount := rfl
@[simp] theorem withPort_lastLevel (p : List Event) : (s.withPort p).lastLevel = s.lastLevel := rfl
@[simp] theorem withPort_rpm (p : List Event) : (s.withPort p).rpm = s.rpm := rfl
@[simp] theorem withPort_integral (p : List Event) : (s.withPort p).integral = s.integral := rfl
@[simp] theorem withPort_prevError (p : List Event) : (s.withPort p).prevError = s.prevError := rfl
@[simp] theorem withPort_output (p : List Event) : (s.withPort p).output = s.output := rfl
@[simp] theorem withPort_pwmMag (p : List Event) : (s.withPort p).pwmMag = s.pwmMag := rfl
@[simp] theorem withPort_dir (p : List Event) : (s.withPort p).dir = s.dir := rfl
@[simp] theorem withPort_outSat (p : List Event) : (s.withPort p).outSat = s.outSat := rfl
@[simp] theorem withPort_intSat (p : List Event) : (s.withPort p).intSat = s.intSat := rfl
@[simp] theorem withPort_faultIllegal (p : List Event) : (s.withPort p).faultIllegal = s.faultIllegal := rfl
@[simp] theorem withPort_faultMag (p : List Event) : (s.withPort p).faultMag = s.faultMag := rfl
@[simp] theorem withPort_drawCount (p : List Event) : (s.withPort p).drawCount = s.drawCount := rfl
@[simp] theorem withPort_port (p : List Event) : (s.withPort p).port = p := rfl
@[simp] theorem withPort_answer (p : List Event) : (s.withPort p).answer = s.answer := rfl

@[simp] theorem withPort_withPort (p q : List Event) : (s.withPort p).withPort q = s.withPort q := rfl
@[simp] theorem withPort_self : s.withPort s.port = s := rfl

@[simp] theorem respond_config (b : Bool) : (respond b s).config = s.config := rfl
@[simp] theorem respond_setpoint (b : Bool) : (respond b s).setpoint = s.setpoint := rfl
@[simp] theorem respond_pulseCount (b : Bool) : (respond b s).pulseCount = s.pulseCount := rfl
@[simp] theorem respond_tickCount (b : Bool) : (respond b s).tickCount = s.tickCount := rfl
@[simp] theorem respond_lastLevel (b : Bool) : (respond b s).lastLevel = s.lastLevel := rfl
@[simp] theorem respond_rpm (b : Bool) : (respond b s).rpm = s.rpm := rfl
@[simp] theorem respond_integral (b : Bool) : (respond b s).integral = s.integral := rfl
@[simp] theorem respond_prevError (b : Bool) : (respond b s).prevError = s.prevError := rfl
@[simp] theorem respond_output (b : Bool) : (respond b s).output = s.output := rfl
@[simp] theorem respond_pwmMag (b : Bool) : (respond b s).pwmMag = s.pwmMag := rfl
@[simp] theorem respond_dir (b : Bool) : (respond b s).dir = s.dir := rfl
@[simp] theorem respond_outSat (b : Bool) : (respond b s).outSat = s.outSat := rfl
@[simp] theorem respond_intSat (b : Bool) : (respond b s).intSat = s.intSat := rfl
@[simp] theorem respond_faultIllegal (b : Bool) : (respond b s).faultIllegal = s.faultIllegal := rfl
@[simp] theorem respond_faultMag (b : Bool) : (respond b s).faultMag = s.faultMag := rfl
@[simp] theorem respond_drawCount (b : Bool) : (respond b s).drawCount = s.drawCount := rfl
@[simp] theorem respond_port (b : Bool) : (respond b s).port = s.port := rfl
@[simp] theorem respond_answer (b : Bool) : (respond b s).answer = .cyc b := rfl

@[simp] theorem raiseFault_illegal_config : (raiseFault .illegal s).config = s.config := rfl
@[simp] theorem raiseFault_illegal_setpoint : (raiseFault .illegal s).setpoint = s.setpoint := rfl
@[simp] theorem raiseFault_illegal_pulseCount : (raiseFault .illegal s).pulseCount = s.pulseCount := rfl
@[simp] theorem raiseFault_illegal_tickCount : (raiseFault .illegal s).tickCount = s.tickCount := rfl
@[simp] theorem raiseFault_illegal_lastLevel : (raiseFault .illegal s).lastLevel = s.lastLevel := rfl
@[simp] theorem raiseFault_illegal_rpm : (raiseFault .illegal s).rpm = s.rpm := rfl
@[simp] theorem raiseFault_illegal_integral : (raiseFault .illegal s).integral = s.integral := rfl
@[simp] theorem raiseFault_illegal_prevError : (raiseFault .illegal s).prevError = s.prevError := rfl
@[simp] theorem raiseFault_illegal_output : (raiseFault .illegal s).output = s.output := rfl
@[simp] theorem raiseFault_illegal_pwmMag : (raiseFault .illegal s).pwmMag = s.pwmMag := rfl
@[simp] theorem raiseFault_illegal_dir : (raiseFault .illegal s).dir = s.dir := rfl
@[simp] theorem raiseFault_illegal_outSat : (raiseFault .illegal s).outSat = s.outSat := rfl
@[simp] theorem raiseFault_illegal_intSat : (raiseFault .illegal s).intSat = s.intSat := rfl
@[simp] theorem raiseFault_illegal_faultIllegal : (raiseFault .illegal s).faultIllegal = true := rfl
@[simp] theorem raiseFault_illegal_faultMag : (raiseFault .illegal s).faultMag = s.faultMag := rfl
@[simp] theorem raiseFault_illegal_drawCount : (raiseFault .illegal s).drawCount = s.drawCount := rfl
@[simp] theorem raiseFault_illegal_port : (raiseFault .illegal s).port = s.port := rfl
@[simp] theorem raiseFault_illegal_answer : (raiseFault .illegal s).answer = s.answer := rfl

@[simp] theorem raiseFault_mag_config : (raiseFault .mag s).config = s.config := rfl
@[simp] theorem raiseFault_mag_setpoint : (raiseFault .mag s).setpoint = s.setpoint := rfl
@[simp] theorem raiseFault_mag_pulseCount : (raiseFault .mag s).pulseCount = s.pulseCount := rfl
@[simp] theorem raiseFault_mag_tickCount : (raiseFault .mag s).tickCount = s.tickCount := rfl
@[simp] theorem raiseFault_mag_lastLevel : (raiseFault .mag s).lastLevel = s.lastLevel := rfl
@[simp] theorem raiseFault_mag_rpm : (raiseFault .mag s).rpm = s.rpm := rfl
@[simp] theorem raiseFault_mag_integral : (raiseFault .mag s).integral = s.integral := rfl
@[simp] theorem raiseFault_mag_prevError : (raiseFault .mag s).prevError = s.prevError := rfl
@[simp] theorem raiseFault_mag_output : (raiseFault .mag s).output = s.output := rfl
@[simp] theorem raiseFault_mag_pwmMag : (raiseFault .mag s).pwmMag = s.pwmMag := rfl
@[simp] theorem raiseFault_mag_dir : (raiseFault .mag s).dir = s.dir := rfl
@[simp] theorem raiseFault_mag_outSat : (raiseFault .mag s).outSat = s.outSat := rfl
@[simp] theorem raiseFault_mag_intSat : (raiseFault .mag s).intSat = s.intSat := rfl
@[simp] theorem raiseFault_mag_faultIllegal : (raiseFault .mag s).faultIllegal = s.faultIllegal := rfl
@[simp] theorem raiseFault_mag_faultMag : (raiseFault .mag s).faultMag = true := rfl
@[simp] theorem raiseFault_mag_drawCount : (raiseFault .mag s).drawCount = s.drawCount := rfl
@[simp] theorem raiseFault_mag_port : (raiseFault .mag s).port = s.port := rfl
@[simp] theorem raiseFault_mag_answer : (raiseFault .mag s).answer = s.answer := rfl

@[simp] theorem performRead_config (idx : BitVec 4) : (performRead idx s).config = s.config := rfl
@[simp] theorem performRead_setpoint (idx : BitVec 4) : (performRead idx s).setpoint = s.setpoint := rfl
@[simp] theorem performRead_pulseCount (idx : BitVec 4) : (performRead idx s).pulseCount = s.pulseCount := rfl
@[simp] theorem performRead_tickCount (idx : BitVec 4) : (performRead idx s).tickCount = s.tickCount := rfl
@[simp] theorem performRead_lastLevel (idx : BitVec 4) : (performRead idx s).lastLevel = s.lastLevel := rfl
@[simp] theorem performRead_rpm (idx : BitVec 4) : (performRead idx s).rpm = s.rpm := rfl
@[simp] theorem performRead_integral (idx : BitVec 4) : (performRead idx s).integral = s.integral := rfl
@[simp] theorem performRead_prevError (idx : BitVec 4) : (performRead idx s).prevError = s.prevError := rfl
@[simp] theorem performRead_output (idx : BitVec 4) : (performRead idx s).output = s.output := rfl
@[simp] theorem performRead_pwmMag (idx : BitVec 4) : (performRead idx s).pwmMag = s.pwmMag := rfl
@[simp] theorem performRead_dir (idx : BitVec 4) : (performRead idx s).dir = s.dir := rfl
@[simp] theorem performRead_outSat (idx : BitVec 4) : (performRead idx s).outSat = s.outSat := rfl
@[simp] theorem performRead_intSat (idx : BitVec 4) : (performRead idx s).intSat = s.intSat := rfl
@[simp] theorem performRead_faultIllegal (idx : BitVec 4) : (performRead idx s).faultIllegal = s.faultIllegal := rfl
@[simp] theorem performRead_faultMag (idx : BitVec 4) : (performRead idx s).faultMag = s.faultMag := rfl
@[simp] theorem performRead_drawCount (idx : BitVec 4) : (performRead idx s).drawCount = s.drawCount := rfl
@[simp] theorem performRead_port (idx : BitVec 4) : (performRead idx s).port = s.port := rfl
@[simp] theorem performRead_answer (idx : BitVec 4) : (performRead idx s).answer = .word (regRead idx s) := rfl

@[simp] theorem performReset_config : (performReset s).config = s.config := rfl
@[simp] theorem performReset_setpoint : (performReset s).setpoint = 0 := rfl
@[simp] theorem performReset_pulseCount : (performReset s).pulseCount = 0 := rfl
@[simp] theorem performReset_tickCount : (performReset s).tickCount = 0 := rfl
@[simp] theorem performReset_lastLevel : (performReset s).lastLevel = false := rfl
@[simp] theorem performReset_rpm : (performReset s).rpm = 0 := rfl
@[simp] theorem performReset_integral : (performReset s).integral = 0 := rfl
@[simp] theorem performReset_prevError : (performReset s).prevError = 0 := rfl
@[simp] theorem performReset_output : (performReset s).output = 0 := rfl
@[simp] theorem performReset_pwmMag : (performReset s).pwmMag = 0 := rfl
@[simp] theorem performReset_dir : (performReset s).dir = 0b00#2 := rfl
@[simp] theorem performReset_outSat : (performReset s).outSat = false := rfl
@[simp] theorem performReset_intSat : (performReset s).intSat = false := rfl
@[simp] theorem performReset_faultIllegal : (performReset s).faultIllegal = false := rfl
@[simp] theorem performReset_faultMag : (performReset s).faultMag = false := rfl
@[simp] theorem performReset_drawCount : (performReset s).drawCount = s.drawCount := rfl
@[simp] theorem performReset_port : (performReset s).port = s.port := rfl
@[simp] theorem performReset_answer : (performReset s).answer = .nothing := rfl

@[simp] theorem rejectWord_config : (rejectWord s).config = s.config := rfl
@[simp] theorem rejectWord_setpoint : (rejectWord s).setpoint = s.setpoint := rfl
@[simp] theorem rejectWord_pulseCount : (rejectWord s).pulseCount = s.pulseCount := rfl
@[simp] theorem rejectWord_tickCount : (rejectWord s).tickCount = s.tickCount := rfl
@[simp] theorem rejectWord_lastLevel : (rejectWord s).lastLevel = s.lastLevel := rfl
@[simp] theorem rejectWord_rpm : (rejectWord s).rpm = s.rpm := rfl
@[simp] theorem rejectWord_integral : (rejectWord s).integral = s.integral := rfl
@[simp] theorem rejectWord_prevError : (rejectWord s).prevError = s.prevError := rfl
@[simp] theorem rejectWord_output : (rejectWord s).output = s.output := rfl
@[simp] theorem rejectWord_pwmMag : (rejectWord s).pwmMag = s.pwmMag := rfl
@[simp] theorem rejectWord_dir : (rejectWord s).dir = s.dir := rfl
@[simp] theorem rejectWord_outSat : (rejectWord s).outSat = s.outSat := rfl
@[simp] theorem rejectWord_intSat : (rejectWord s).intSat = s.intSat := rfl
@[simp] theorem rejectWord_faultIllegal : (rejectWord s).faultIllegal = true := rfl
@[simp] theorem rejectWord_faultMag : (rejectWord s).faultMag = s.faultMag := rfl
@[simp] theorem rejectWord_drawCount : (rejectWord s).drawCount = s.drawCount := rfl
@[simp] theorem rejectWord_port : (rejectWord s).port = s.port := rfl
@[simp] theorem rejectWord_answer : (rejectWord s).answer = .cyc false := rfl

@[simp] theorem present_config (a : Agent) (w : Byte) : (present a w s).config = s.config := rfl
@[simp] theorem present_setpoint (a : Agent) (w : Byte) : (present a w s).setpoint = s.setpoint := rfl
@[simp] theorem present_pulseCount (a : Agent) (w : Byte) : (present a w s).pulseCount = s.pulseCount := rfl
@[simp] theorem present_tickCount (a : Agent) (w : Byte) : (present a w s).tickCount = s.tickCount := rfl
@[simp] theorem present_lastLevel (a : Agent) (w : Byte) : (present a w s).lastLevel = s.lastLevel := rfl
@[simp] theorem present_rpm (a : Agent) (w : Byte) : (present a w s).rpm = s.rpm := rfl
@[simp] theorem present_integral (a : Agent) (w : Byte) : (present a w s).integral = s.integral := rfl
@[simp] theorem present_prevError (a : Agent) (w : Byte) : (present a w s).prevError = s.prevError := rfl
@[simp] theorem present_output (a : Agent) (w : Byte) : (present a w s).output = s.output := rfl
@[simp] theorem present_pwmMag (a : Agent) (w : Byte) : (present a w s).pwmMag = s.pwmMag := rfl
@[simp] theorem present_dir (a : Agent) (w : Byte) : (present a w s).dir = s.dir := rfl
@[simp] theorem present_outSat (a : Agent) (w : Byte) : (present a w s).outSat = s.outSat := rfl
@[simp] theorem present_intSat (a : Agent) (w : Byte) : (present a w s).intSat = s.intSat := rfl
@[simp] theorem present_faultIllegal (a : Agent) (w : Byte) : (present a w s).faultIllegal = s.faultIllegal := rfl
@[simp] theorem present_faultMag (a : Agent) (w : Byte) : (present a w s).faultMag = s.faultMag := rfl
@[simp] theorem present_drawCount (a : Agent) (w : Byte) : (present a w s).drawCount = s.drawCount := rfl
@[simp] theorem present_port (a : Agent) (w : Byte) : (present a w s).port = .command a w :: s.port := rfl
@[simp] theorem present_answer (a : Agent) (w : Byte) : (present a w s).answer = s.answer := rfl

@[simp] theorem sampleLevel_config (l : Bool) : (sampleLevel l s).config = s.config := rfl
@[simp] theorem sampleLevel_setpoint (l : Bool) : (sampleLevel l s).setpoint = s.setpoint := rfl
@[simp] theorem sampleLevel_pulseCount (l : Bool) : (sampleLevel l s).pulseCount = if risingEdge s.lastLevel l then unsignedBits 16 (wrapUnsigned 16 (unsignedValue s.pulseCount + 1)) else s.pulseCount := rfl
@[simp] theorem sampleLevel_tickCount (l : Bool) : (sampleLevel l s).tickCount = s.tickCount := rfl
@[simp] theorem sampleLevel_lastLevel (l : Bool) : (sampleLevel l s).lastLevel = l := rfl
@[simp] theorem sampleLevel_rpm (l : Bool) : (sampleLevel l s).rpm = s.rpm := rfl
@[simp] theorem sampleLevel_integral (l : Bool) : (sampleLevel l s).integral = s.integral := rfl
@[simp] theorem sampleLevel_prevError (l : Bool) : (sampleLevel l s).prevError = s.prevError := rfl
@[simp] theorem sampleLevel_output (l : Bool) : (sampleLevel l s).output = s.output := rfl
@[simp] theorem sampleLevel_pwmMag (l : Bool) : (sampleLevel l s).pwmMag = s.pwmMag := rfl
@[simp] theorem sampleLevel_dir (l : Bool) : (sampleLevel l s).dir = s.dir := rfl
@[simp] theorem sampleLevel_outSat (l : Bool) : (sampleLevel l s).outSat = s.outSat := rfl
@[simp] theorem sampleLevel_intSat (l : Bool) : (sampleLevel l s).intSat = s.intSat := rfl
@[simp] theorem sampleLevel_faultIllegal (l : Bool) : (sampleLevel l s).faultIllegal = s.faultIllegal := rfl
@[simp] theorem sampleLevel_faultMag (l : Bool) : (sampleLevel l s).faultMag = s.faultMag := rfl
@[simp] theorem sampleLevel_drawCount (l : Bool) : (sampleLevel l s).drawCount = s.drawCount := rfl
@[simp] theorem sampleLevel_port (l : Bool) : (sampleLevel l s).port = s.port := rfl
@[simp] theorem sampleLevel_answer (l : Bool) : (sampleLevel l s).answer = .cyc false := rfl

@[simp] theorem adjustSetpoint_config (d : Int) : (adjustSetpoint d s).config = s.config := rfl
@[simp] theorem adjustSetpoint_setpoint (d : Int) : (adjustSetpoint d s).setpoint = signedBits 16 (clamp (signedValue s.setpoint + d) spMin spMax) := rfl
@[simp] theorem adjustSetpoint_pulseCount (d : Int) : (adjustSetpoint d s).pulseCount = s.pulseCount := rfl
@[simp] theorem adjustSetpoint_tickCount (d : Int) : (adjustSetpoint d s).tickCount = s.tickCount := rfl
@[simp] theorem adjustSetpoint_lastLevel (d : Int) : (adjustSetpoint d s).lastLevel = s.lastLevel := rfl
@[simp] theorem adjustSetpoint_rpm (d : Int) : (adjustSetpoint d s).rpm = s.rpm := rfl
@[simp] theorem adjustSetpoint_integral (d : Int) : (adjustSetpoint d s).integral = s.integral := rfl
@[simp] theorem adjustSetpoint_prevError (d : Int) : (adjustSetpoint d s).prevError = s.prevError := rfl
@[simp] theorem adjustSetpoint_output (d : Int) : (adjustSetpoint d s).output = s.output := rfl
@[simp] theorem adjustSetpoint_pwmMag (d : Int) : (adjustSetpoint d s).pwmMag = s.pwmMag := rfl
@[simp] theorem adjustSetpoint_dir (d : Int) : (adjustSetpoint d s).dir = s.dir := rfl
@[simp] theorem adjustSetpoint_outSat (d : Int) : (adjustSetpoint d s).outSat = s.outSat := rfl
@[simp] theorem adjustSetpoint_intSat (d : Int) : (adjustSetpoint d s).intSat = s.intSat := rfl
@[simp] theorem adjustSetpoint_faultIllegal (d : Int) : (adjustSetpoint d s).faultIllegal = s.faultIllegal := rfl
@[simp] theorem adjustSetpoint_faultMag (d : Int) : (adjustSetpoint d s).faultMag = s.faultMag := rfl
@[simp] theorem adjustSetpoint_drawCount (d : Int) : (adjustSetpoint d s).drawCount = s.drawCount := rfl
@[simp] theorem adjustSetpoint_port (d : Int) : (adjustSetpoint d s).port = s.port := rfl
@[simp] theorem adjustSetpoint_answer (d : Int) : (adjustSetpoint d s).answer = .cyc false := rfl

@[simp] theorem recordOverrange_config (o : Bool) : (recordOverrange o s).config = s.config := by cases o <;> simp [recordOverrange]
@[simp] theorem recordOverrange_setpoint (o : Bool) : (recordOverrange o s).setpoint = s.setpoint := by cases o <;> simp [recordOverrange]
@[simp] theorem recordOverrange_pulseCount (o : Bool) : (recordOverrange o s).pulseCount = s.pulseCount := by cases o <;> simp [recordOverrange]
@[simp] theorem recordOverrange_tickCount (o : Bool) : (recordOverrange o s).tickCount = s.tickCount := by cases o <;> simp [recordOverrange]
@[simp] theorem recordOverrange_lastLevel (o : Bool) : (recordOverrange o s).lastLevel = s.lastLevel := by cases o <;> simp [recordOverrange]
@[simp] theorem recordOverrange_rpm (o : Bool) : (recordOverrange o s).rpm = s.rpm := by cases o <;> simp [recordOverrange]
@[simp] theorem recordOverrange_integral (o : Bool) : (recordOverrange o s).integral = s.integral := by cases o <;> simp [recordOverrange]
@[simp] theorem recordOverrange_prevError (o : Bool) : (recordOverrange o s).prevError = s.prevError := by cases o <;> simp [recordOverrange]
@[simp] theorem recordOverrange_output (o : Bool) : (recordOverrange o s).output = s.output := by cases o <;> simp [recordOverrange]
@[simp] theorem recordOverrange_pwmMag (o : Bool) : (recordOverrange o s).pwmMag = s.pwmMag := by cases o <;> simp [recordOverrange]
@[simp] theorem recordOverrange_dir (o : Bool) : (recordOverrange o s).dir = s.dir := by cases o <;> simp [recordOverrange]
@[simp] theorem recordOverrange_outSat (o : Bool) : (recordOverrange o s).outSat = s.outSat := by cases o <;> simp [recordOverrange]
@[simp] theorem recordOverrange_intSat (o : Bool) : (recordOverrange o s).intSat = s.intSat := by cases o <;> simp [recordOverrange]
@[simp] theorem recordOverrange_faultIllegal (o : Bool) : (recordOverrange o s).faultIllegal = s.faultIllegal := by cases o <;> simp [recordOverrange]
@[simp] theorem recordOverrange_faultMag (o : Bool) : (recordOverrange o s).faultMag = (s.faultMag || o) := by cases o <;> simp [recordOverrange]
@[simp] theorem recordOverrange_drawCount (o : Bool) : (recordOverrange o s).drawCount = if o then s.drawCount + 1 else s.drawCount := by cases o <;> simp [recordOverrange]
@[simp] theorem recordOverrange_port (o : Bool) : (recordOverrange o s).port = s.port := by cases o <;> simp [recordOverrange]
@[simp] theorem recordOverrange_answer (o : Bool) : (recordOverrange o s).answer = s.answer := by cases o <;> simp [recordOverrange]

@[simp] theorem performCycle_config : (performCycle s).config = s.config := by simp [performCycle]
@[simp] theorem performCycle_setpoint : (performCycle s).setpoint = s.setpoint := by simp [performCycle]
@[simp] theorem performCycle_pulseCount : (performCycle s).pulseCount = unsignedBits 16 0 := by simp [performCycle]
@[simp] theorem performCycle_tickCount : (performCycle s).tickCount = unsignedBits 16 0 := by simp [performCycle]
@[simp] theorem performCycle_lastLevel : (performCycle s).lastLevel = s.lastLevel := by simp [performCycle]
@[simp] theorem performCycle_rpm : (performCycle s).rpm = unsignedBits 32 (cycleRpm s) := by simp [performCycle]
@[simp] theorem performCycle_integral : (performCycle s).integral = signedBits 32 (cycleIntegral s).1 := by simp [performCycle]
@[simp] theorem performCycle_prevError : (performCycle s).prevError = signedBits 32 (cycleError s) := by simp [performCycle]
@[simp] theorem performCycle_output : (performCycle s).output = signedBits 32 (cycleOutput s) := by simp [performCycle]
@[simp] theorem performCycle_pwmMag : (performCycle s).pwmMag = (cycleActuation s).mag := by simp [performCycle]
@[simp] theorem performCycle_dir : (performCycle s).dir = (cycleActuation s).dir := by simp [performCycle]
@[simp] theorem performCycle_outSat : (performCycle s).outSat = outputSaturates (cycleRaw s) := by simp [performCycle]
@[simp] theorem performCycle_intSat : (performCycle s).intSat = (s.intSat || (cycleIntegral s).2) := by simp [performCycle]
@[simp] theorem performCycle_faultIllegal : (performCycle s).faultIllegal = s.faultIllegal := by simp [performCycle]
@[simp] theorem performCycle_faultMag : (performCycle s).faultMag = (s.faultMag || (cycleActuation s).overrange) := by simp [performCycle]
@[simp] theorem performCycle_drawCount : (performCycle s).drawCount = if (cycleActuation s).overrange then s.drawCount + 1 else s.drawCount := by simp [performCycle]
@[simp] theorem performCycle_port : (performCycle s).port = s.port := by simp [performCycle]
@[simp] theorem performCycle_answer : (performCycle s).answer = .cyc true := by simp [performCycle]

end Sys2Proof.Machine
end

