-- ==== Sys2Proof/Laws/Ops.lean ====
section
/-! SUPPORT. What each shared operation, each command and a step can do, each said once. -/

namespace Sys2Proof.Machine

/-- `Saturate` (R164). -/
theorem saturate_eq (c : Config) (raw : Int) :
    saturate c raw = if c.saturate then max (-255) (min 255 raw) else raw := by
  unfold saturate; split
  · exact clamp_eq_max_min (by decide)
  · rfl

/-- `PidRaw` (R162), with Lean's truncating division. -/
theorem pidRaw_eq (e i ePrev : Int) : pidRaw e i ePrev = (20 * e + 2 * i + (e - ePrev)).tdiv 20 := by
  rw [pidRaw, gainDen, tdiv_eq_int_tdiv _ _ (by decide), kpNum, kiNum, kdNum, one_mul]

/-- `Actuate` (R180): the sign gives the direction, and a magnitude up to 255 is the absolute value; above it the magnitude is
the draw, and the overrange is reported (R181). -/
theorem actuate_cases (draw : Byte) (v : Int) :
    (actuate draw v).dir = (if 0 < v then 0b01#2 else if v < 0 then 0b10#2 else 0b00#2) ∧
    ((v.natAbs ≤ 255 ∧ (actuate draw v).overrange = false ∧ (actuate draw v).mag.toNat = v.natAbs) ∨
      (255 < v.natAbs ∧ (actuate draw v).overrange = true ∧ (actuate draw v).mag = draw)) := by
  unfold actuate magMax dirForward dirReverse dirNeutral
  split_ifs
  · refine ⟨rfl, .inl ⟨by omega, rfl, ?_⟩⟩
    rw [toNat_unsignedBits (by norm_num; omega)]; omega
  · exact ⟨rfl, .inr ⟨by omega, rfl, rfl⟩⟩
  · refine ⟨rfl, .inl ⟨by omega, rfl, ?_⟩⟩
    rw [toNat_unsignedBits (by norm_num; omega)]; omega
  · exact ⟨rfl, .inr ⟨by omega, rfl, rfl⟩⟩
  · exact ⟨rfl, .inl ⟨by omega, rfl, by rw [toNat_unsignedBits (by norm_num)]; omega⟩⟩

/-- The state after a command: no meaning stops (R220). -/
def effect (i : Instr) (s : State) : State :=
  match i with
  | .sample0 => sampleLevel false s
  | .sample1 => sampleLevel true s
  | .tick => respond false
      { s with tickCount := unsignedBits 16 (wrapUnsigned 16 (unsignedValue s.tickCount + 1)) }
  | .eval => if boundary s then performCycle s else respond false s
  | .inc => adjustSetpoint spStep s
  | .dec => adjustSetpoint (-spStep) s

theorem exec_eq_effect (i : Instr) (s : State) : exec i s = .next (effect i s) := by
  cases i with
  | eval => simp only [exec, effect, execEval]; split <;> rfl
  | _ => rfl

/-- The detector (R121). -/
theorem boundary_iff (s : State) : boundary s = true ↔ s.config.tickThreshold ≤ s.tickCount.toNat := by
  exact decide_eq_true_iff

/-- The state after an event is performed, once it is taken from the port (R68). -/
def eventEffect (e : Event) (s : State) : State :=
  match e with
  | .command _ w =>
    match decode w with
    | .ok i => effect i s
    | .error _ => rejectWord s
  | .reset => performReset s
  | .read idx => performRead idx s

/-- A step with nothing presented (log entry 6). -/
theorem step_of_port_nil {s : State} (h : s.port = []) : step s = .next s := by
  simp [step, nextEvent, h]

/-- A step performs the next event on the state in which it is consumed (R67, R72). -/
theorem step_of_port_cons {s : State} {e : Event} {rest : List Event} (h : s.port = e :: rest) :
    step s = .next (eventEffect e (s.withPort rest)) := by
  cases e with
  | command a w =>
    simp only [step, nextEvent, h, performWord, eventEffect]
    cases decode w with
    | ok i => exact exec_eq_effect i _
    | error r => rfl
  | reset => simp only [step, nextEvent, h, eventEffect]
  | read idx => simp only [step, nextEvent, h, eventEffect]

/-- All that a step can do: wait, or perform the next event. -/
theorem step_cases {s t : State} (h : step s = .next t) :
    (s.port = [] ∧ t = s) ∨ ∃ e rest, s.port = e :: rest ∧ t = eventEffect e (s.withPort rest) := by
  cases hp : s.port with
  | nil => rw [step_of_port_nil hp] at h; cases h; exact .inl ⟨rfl, rfl⟩
  | cons e rest => rw [step_of_port_cons hp] at h; cases h; exact .inr ⟨e, rest, rfl, rfl⟩

/-- No command, no illegal word, no reset and no read touches the events that wait. -/
theorem eventEffect_port (e : Event) (s : State) : (eventEffect e s).port = s.port := by
  cases e with
  | command a w =>
    simp only [eventEffect]
    cases decode w with
    | ok i => cases i <;> simp only [effect] <;> first | simp | (split <;> simp)
    | error r => simp
  | reset => rfl
  | read idx => rfl

/-- A run of one more step. -/
theorem run_succ {s t : State} (n : Nat) (h : step s = .next t) :
    Host.Core.run Sys2Proof.core (n + 1) s = Host.Core.run Sys2Proof.core n t := by
  have h' : Sys2Proof.core.step s = .next t := h
  simp only [Host.Core.run, h']

end Sys2Proof.Machine
end

