-- ==== Sys2Proof/Laws/Cycle.lean ====
section
/-! SUPPORT. What a measurement cycle writes, as numbers: every value it computes fits its register, in every state (R160 to R168). -/

namespace Sys2Proof.Machine

/-- EVAL with the detector asserted (R122). -/
theorem exec_eval_of_boundary {s : State} (h : s.config.tickThreshold ≤ s.tickCount.toNat) :
    exec .eval s = .next (performCycle s) := by
  rw [exec_eq_effect]; simp only [effect, (boundary_iff s).2 h]; rfl

/-- EVAL with the detector deasserted (R123). -/
theorem exec_eval_of_not_boundary {s : State} (h : s.tickCount.toNat < s.config.tickThreshold) :
    exec .eval s = .next (respond false s) := by
  have hb : boundary s = false := by
    rw [Bool.eq_false_iff, Ne, boundary_iff]; omega
  rw [exec_eq_effect]; simp only [effect, hb]; rfl

theorem cycleRpm_le (s : State) : cycleRpm s ≤ 3932100 :=
  rpmOf_le _ (by have := s.pulseCount.isLt; unfold unsignedValue; omega)

theorem performCycle_rpm_toNat (s : State) : (performCycle s).rpm.toNat = cycleRpm s := by
  rw [performCycle_rpm, toNat_unsignedBits (by have := cycleRpm_le s; omega)]

theorem cycleError_eq (s : State) : cycleError s = s.setpoint.toInt - cycleRpm s := rfl

theorem cycleError_bounds (s : State) : -3964868 ≤ cycleError s ∧ cycleError s ≤ 32767 := by
  have := cycleRpm_le s; have := word16_toInt_bounds s.setpoint; rw [cycleError_eq]; omega

theorem performCycle_prevError_toInt (s : State) : (performCycle s).prevError.toInt = cycleError s := by
  have := cycleError_bounds s
  rw [performCycle_prevError, toInt_signedBits_32 (by omega) (by omega)]

theorem cycleIntegral_fst (s : State) :
    (cycleIntegral s).1 = max (-2147483648) (min 2147483647 (s.integral.toInt + cycleError s)) :=
  satSigned_32 _

theorem performCycle_integral_toInt (s : State) : (performCycle s).integral.toInt = (cycleIntegral s).1 := by
  rw [performCycle_integral, toInt_signedBits_32] <;> rw [cycleIntegral_fst] <;> omega

theorem cycleRaw_eq (s : State) :
    cycleRaw s = (20 * cycleError s + 2 * (cycleIntegral s).1 + (cycleError s - s.prevError.toInt)).tdiv 20 :=
  pidRaw_eq _ _ _

/-- A quotient by 20 that rounds toward zero. -/
theorem tdiv_20_bounds {n k : Int} (lo : -(20 * k) ≤ n) (hi : n ≤ 20 * k) : -k ≤ n.tdiv 20 ∧ n.tdiv 20 ≤ k := by
  rcases le_total 0 n with h | h
  · rw [Int.tdiv_eq_ediv_of_nonneg h]; omega
  · have := Int.neg_tdiv n 20
    rw [Int.tdiv_eq_ediv_of_nonneg (a := -n) (by omega)] at this; omega

/-- The raw value fits 32 bits signed, in every state. -/
theorem cycleRaw_bounds (s : State) : -2147483647 ≤ cycleRaw s ∧ cycleRaw s ≤ 2147483647 := by
  have he := cycleError_bounds s
  have hi := cycleIntegral_fst s
  have hp := word32_toInt_bounds s.prevError
  rw [cycleRaw_eq]
  apply tdiv_20_bounds <;> omega

theorem performCycle_output_toInt (s : State) : (performCycle s).output.toInt = cycleOutput s := by
  have h := cycleRaw_bounds s
  have hs : cycleOutput s = _ := saturate_eq s.config (cycleRaw s)
  rw [performCycle_output, toInt_signedBits_32] <;> rw [hs] <;> split <;> omega

/-- What the mapper makes of a cycle's output (R180, R181). -/
theorem cycleActuation_cases (s : State) :
    (cycleActuation s).dir =
      (if 0 < cycleOutput s then 0b01#2 else if cycleOutput s < 0 then 0b10#2 else 0b00#2) ∧
    (((cycleOutput s).natAbs ≤ 255 ∧ (cycleActuation s).overrange = false ∧
        (cycleActuation s).mag.toNat = (cycleOutput s).natAbs) ∨
      (255 < (cycleOutput s).natAbs ∧ (cycleActuation s).overrange = true ∧
        (cycleActuation s).mag = Config.draw8 s.drawCount)) :=
  actuate_cases _ _

end Sys2Proof.Machine
end

