-- ==== Sys2Proof/Laws/PerInstr.lean ====
section
/-! SUPPORT. The per-instruction families: statements about every command as syntax, one lemma per constructor. -/

namespace Sys2Proof.Laws

/-- R80, R83: the word of a command is one of the six legal words, its Z field is 0b0000, and L is 1 for SAMPLE 1 alone. -/
def EncodedWord.Statement (i : Instr) : Prop :=
  legalWord (encode i) = true ∧ fieldZ (encode i) = 0b0000#4 ∧ (fieldL (encode i) = true ↔ i = .sample1)

theorem EncodedWord.sample0 : EncodedWord.Statement .sample0 := by unfold EncodedWord.Statement; decide
theorem EncodedWord.sample1 : EncodedWord.Statement .sample1 := by unfold EncodedWord.Statement; decide
theorem EncodedWord.tick : EncodedWord.Statement .tick := by unfold EncodedWord.Statement; decide
theorem EncodedWord.eval : EncodedWord.Statement .eval := by unfold EncodedWord.Statement; decide
theorem EncodedWord.inc : EncodedWord.Statement .inc := by unfold EncodedWord.Statement; decide
theorem EncodedWord.dec : EncodedWord.Statement .dec := by unfold EncodedWord.Statement; decide

end Sys2Proof.Laws
end

