-- ==== Sys2Proof/Laws/Run.lean ====
section
/-! SUPPORT. Performing a list of events (R68), one event at a time: the events that wait do not change what an event does. -/

namespace Sys2Proof.Machine

/-- A command does not look at the events that wait. -/
theorem effect_withPort (i : Instr) (s : State) (p : List Event) :
    effect i (s.withPort p) = (effect i s).withPort p := by
  have hb : boundary (s.withPort p) = boundary s := rfl
  have ha : cycleActuation (s.withPort p) = cycleActuation s := rfl
  cases i with
  | eval =>
    simp only [effect, hb]
    cases boundary s with
    | false => rfl
    | true =>
      simp only [if_true, performCycle, ha]
      cases (cycleActuation s).overrange <;> rfl
  | _ => rfl

/-- The read port does not show the events that wait. -/
theorem regRead_withPort (idx : BitVec 4) (s : State) (p : List Event) :
    regRead idx (s.withPort p) = regRead idx s := rfl

/-- No event looks at the events after it (R68). -/
theorem eventEffect_withPort (e : Event) (s : State) (p : List Event) :
    eventEffect e (s.withPort p) = (eventEffect e s).withPort p := by
  cases e with
  | command a w =>
    simp only [eventEffect]
    cases decode w with
    | ok i => exact effect_withPort i s p
    | error r => rfl
  | reset => rfl
  | read idx =>
    simp only [eventEffect, performRead, regRead_withPort]
    rfl

theorem run_cons (n : Nat) (e : Event) (es : List Event) (s : State) :
    Host.Core.run Sys2Proof.core (n + 1) (s.withPort (e :: es)) =
      Host.Core.run Sys2Proof.core n ((eventEffect e s).withPort es) := by
  rw [run_succ n (step_of_port_cons rfl), ← eventEffect_withPort, withPort_withPort]

/-- A list of events is performed one by one, the first one first. -/
theorem performEvents_cons (e : Event) (es : List Event) (s : State) :
    performEvents (e :: es) s = performEvents es (eventEffect e s) := by
  unfold performEvents
  rw [List.cons_append, List.length_cons, run_cons, eventEffect_port]

theorem performEvents_nil (s : State) : performEvents [] s = .next s := rfl

/-- Performing events always ends in a next state: the fold of the events' effects. -/
theorem performEvents_eq_foldl (es : List Event) (s : State) :
    performEvents es s = .next (es.foldl (fun u e => eventEffect e u) s) := by
  induction es generalizing s with
  | nil => rfl
  | cons e es ih => rw [performEvents_cons, ih, List.foldl_cons]

theorem stateAfter_zero (es : List Event) (s : State) : stateAfter 0 es s = s.withPort (es ++ s.port) := rfl

/-- A run of any length ends in a next state (R220). -/
theorem run_next (n : Nat) (s : State) : ∃ t, Host.Core.run Sys2Proof.core n s = .next t := by
  induction n generalizing s with
  | zero => exact ⟨s, rfl⟩
  | succ n ih =>
    cases hp : s.port with
    | nil => rw [run_succ n (step_of_port_nil hp)]; exact ih s
    | cons e es => rw [run_succ n (step_of_port_cons hp)]; exact ih _

theorem stateAfter_succ (n : Nat) (e : Event) (es : List Event) (s : State) :
    stateAfter (n + 1) (e :: es) s = stateAfter n es (eventEffect e s) := by
  obtain ⟨t, ht⟩ := run_next n ((eventEffect e s).withPort (es ++ s.port))
  unfold stateAfter
  rw [List.cons_append, run_cons, eventEffect_port, ht]

/-- Whether a cycle is performed is told event by event. -/
theorem noCycle_cons (e : Event) (es : List Event) (s : State) :
    NoCycle (e :: es) s ↔ (eventEffect e s).answer ≠ .cyc true ∧ NoCycle es (eventEffect e s) := by
  unfold NoCycle
  constructor
  · intro h
    refine ⟨?_, fun n hn => ?_⟩
    · have h0 := h 0 (by simp)
      rwa [stateAfter_succ 0 e es s, stateAfter_zero] at h0
    · have := h (n + 1) (by simpa using hn)
      rwa [stateAfter_succ (n + 1) e es s] at this
  · rintro ⟨h0, h⟩ n hn
    cases n with
    | zero => rwa [stateAfter_succ 0 e es s, stateAfter_zero]
    | succ n =>
      have hn' : n < es.length := by simpa using hn
      rw [stateAfter_succ (n + 1) e es s]
      exact h n hn'

end Sys2Proof.Machine
end

