-- ==== Sys2Proof/Laws/Words.lean ====
section
/-! SUPPORT. The two gathered words of the read port as numbers (R42, R61). -/

namespace Sys2Proof.Machine

/-- STATUS (R42): bits 5 to 0, and zeros above. -/
theorem statusWord_eq (s : State) :
    statusWord s = BitVec.ofNat 32 (32 * s.faultMag.toNat + 16 * s.faultIllegal.toNat + 8 * s.intSat.toNat +
      4 * s.outSat.toNat + 2 * (boundary s).toNat + s.lastLevel.toNat) := by
  unfold statusWord
  generalize boundary s = b
  cases s.faultMag <;> cases s.faultIllegal <;> cases s.intSat <;> cases s.outSat <;> cases b <;>
    cases s.lastLevel <;> rfl

/-- ACTUATOR (R61): PWM_MAG in bits 7 to 0, DIR in bits 9 and 8, and zeros above. -/
theorem actuatorWord_toNat (s : State) : (actuatorWord s).toNat = s.dir.toNat * 256 + s.pwmMag.toNat := by
  have h : (actuatorWord s).toNat = (0#22 ++ s.dir ++ s.pwmMag : BitVec (22 + 2 + 8)).toNat := rfl
  have hm := s.pwmMag.isLt
  rw [h, BitVec.toNat_append, BitVec.toNat_append, Nat.shiftLeft_eq, Nat.mul_comm _ (2 ^ 8),
    ← Nat.two_pow_add_eq_or_of_lt hm]
  simp [Nat.mul_comm]

end Sys2Proof.Machine
end

