-- ==== Sys2Proof/Tests/Slice0.lean ====
section
/-! SUPPORT. The model's own tests: expected values from 95_test_vectors.md (W1 to W9, V-*), and, for each obligation with
hypotheses, a state and operands that meet them. -/

namespace Sys2Proof.Tests

open Sys2Proof.Machine

/-- The vectors' configuration: PPR = 20, TICK_THRESHOLD = 488, SATURATE = true. -/
def cfg : Config := { ppr := 20, tickThreshold := 488, saturate := true }

/-- The same with SATURATE = false. -/
def cfgPass : Config := { ppr := 20, tickThreshold := 488, saturate := false }

/-- A short cycle, for tests that run one. -/
def cfgShort : Config := { ppr := 20, tickThreshold := 2, saturate := true }

/-- The vectors' start state. -/
def s0 : State := State.initial cfg

/-- The vectors' state at a cycle boundary. -/
def atBoundary : State := { s0 with tickCount := 488 }

/-- Whether an outcome is a next state with a property. -/
def nextIs (o : Host.Outcome State Fault Refusal) (p : State → Bool) : Bool :=
  match o with
  | .next t => p t
  | .fault _ => false
  | .refused _ => false

/-! ### Well-formedness: each check refuses an ill-formed term -/

theorem test_illegal_word_nonzero_z : legalWord 0x19 = false := by decide
theorem test_illegal_word_reserved_op : legalWord 0x00 = false ∧ legalWord 0x06 = false ∧ legalWord 0x07 = false := by
  decide
theorem test_illegal_word_stray_level : legalWord 0x0A = false ∧ legalWord 0x0C = false ∧ legalWord 0x0D = false := by
  decide
theorem test_ppr_zero_refused : ¬Parameters.WellFormed ⟨0, 488, true⟩ := by decide
theorem test_ppr_too_large_refused : ¬Parameters.WellFormed ⟨65536, 488, true⟩ := by decide
theorem test_threshold_zero_refused : ¬Parameters.WellFormed ⟨20, 0, true⟩ := by decide
theorem test_threshold_too_large_refused : ¬Parameters.WellFormed ⟨20, 65536, true⟩ := by decide
theorem test_parameters_at_bounds_accepted :
    Parameters.WellFormed ⟨1, 65535, false⟩ ∧ Parameters.WellFormed ⟨65535, 1, true⟩ := by decide

/-! ### Decoding: words written bit by bit, `Z L OP`, from R80 and R82 (V-DEC) -/

theorem test_decode_sample0 : decode 0b00000001#8 = .ok .sample0 := by decide
theorem test_decode_sample1 : decode 0b00001001#8 = .ok .sample1 := by decide
theorem test_decode_tick : decode 0b00000010#8 = .ok .tick := by decide
theorem test_decode_eval : decode 0b00000011#8 = .ok .eval := by decide
theorem test_decode_inc : decode 0b00000100#8 = .ok .inc := by decide
theorem test_decode_dec : decode 0b00000101#8 = .ok .dec := by decide
theorem test_decode_reserved : decode 0b00000000#8 = .error .reservedOp := by decide
theorem test_decode_stray_level : decode 0b00001010#8 = .error .strayLevel := by decide
theorem test_decode_nonzero_z : decode 0b00011001#8 = .error .nonzeroZ := by decide
theorem test_table_words : decodeTableWord 8 0x09 = some .sample1 ∧ decodeTableWord 8 0xFF = none := by decide
theorem test_fetch_word_runs_first :
    nextIs (step (State.reset.withFetchWord 8 0x04)) (fun t => t.setpoint == 25) = true := by decide

/-! ### Commands -/

/-- V-SAMPLE-3: a falling edge is not counted. -/
theorem test_sample0_falling : nextIs (exec .sample0 { s0 with lastLevel := true, pulseCount := 1 })
    (fun t => t.pulseCount == 1 && !t.lastLevel) = true := by decide
/-- V-SAMPLE-2: a held level is not counted. -/
theorem test_sample1_held : nextIs (exec .sample1 { s0 with lastLevel := true, pulseCount := 1 })
    (fun t => t.pulseCount == 1) = true := by decide
/-- V-SAMPLE-5: the count wraps. -/
theorem test_sample1_wraps : nextIs (exec .sample1 { s0 with pulseCount := 65535 })
    (fun t => t.pulseCount == 0 && t.lastLevel) = true := by decide
/-- V-TICK-3: the threshold is reached. -/
theorem test_tick_reaches : nextIs (exec .tick { s0 with tickCount := 487 })
    (fun t => t.tickCount == 488 && boundary t) = true := by decide
/-- V-TICK-5: the count wraps and the detector reads 0. -/
theorem test_tick_wraps : nextIs (exec .tick { s0 with tickCount := 65535 })
    (fun t => t.tickCount == 0 && !boundary t) = true := by decide
/-- V-EVAL-1. -/
theorem test_eval_waits : exec .eval { s0 with tickCount := 487, pulseCount := 5 } =
    .next { s0 with tickCount := 487, pulseCount := 5, answer := .cyc false } := rfl
/-- V-EVAL-2: a negative output, exactly. -/
theorem test_eval_negative : nextIs (exec .eval { atBoundary with pulseCount := 20 })
    (fun t => t.rpm == 60 && t.integral.toInt == -60 && t.prevError.toInt == -60 && t.output.toInt == -69 &&
      t.pwmMag == 69 && t.dir == 0b10#2 && !t.outSat && t.tickCount == 0 && t.pulseCount == 0 &&
      t.answer == .cyc true) = true := by decide
/-- V-SP-2, V-SP-8. -/
theorem test_inc_clamps : nextIs (exec .inc { s0 with setpoint := 250 }) (fun t => t.setpoint == 255) = true ∧
    nextIs (exec .inc { s0 with setpoint := -255 }) (fun t => t.setpoint == -230) = true := by decide
/-- V-SP-5, V-SP-6. -/
theorem test_dec_clamps : nextIs (exec .dec { s0 with setpoint := 5 }) (fun t => t.setpoint == -20) = true ∧
    nextIs (exec .dec { s0 with setpoint := -250 }) (fun t => t.setpoint == -255) = true := by decide

/-! ### Functions, words, events -/

/-- V-RPM-4, V-RPM-5, V-RPM-8, V-RPM-9. -/
theorem test_rpmOf : rpmOf { cfg with ppr := 7, ppr_range := by decide } 1 = 8 ∧
    rpmOf { cfg with ppr := 1, ppr_range := by decide } 65535 = 3932100 ∧
    rpmOf { cfg with ppr := 1, ppr_range := by decide } 1093 = 65580 ∧
    rpmOf { cfg with ppr := 3, ppr_range := by decide } 100 = 2000 := by decide
/-- V-PID-3, V-PID-4, V-PID-5, V-PID-18: truncation toward zero. -/
theorem test_pidRaw_truncates : pidRaw 0 (-60) (-60) = -3 ∧ pidRaw (-3) (-3) 0 = -3 ∧ pidRaw (-9) (-9) 0 = -10 ∧
    pidRaw (-60) 168 (-4) = -46 := by decide
/-- V-PID-14, V-PID-15, V-PID-16: the integral's bounds, and its release. -/
theorem test_pidIntegral : pidIntegral 2147483642 10 = (2147483647, true) ∧
    pidIntegral (-2147483645) (-10) = (-2147483648, true) ∧ pidIntegral 2147483647 (-5) = (2147483642, false) := by
  decide
/-- R164's corner cases. -/
theorem test_saturate : saturate cfg 256 = 255 ∧ saturate cfg (-256) = -255 ∧ saturate cfg 255 = 255 ∧
    saturate cfgPass 293 = 293 := by decide
/-- V-ACT-1, V-ACT-2, V-ACT-6, and V-ACT-8 for any draw. -/
theorem test_actuate : actuate 0 (-30) = ⟨30, 0b10#2, false⟩ ∧ actuate 0 0 = ⟨0, 0b00#2, false⟩ ∧
    actuate 0 (-255) = ⟨255, 0b10#2, false⟩ ∧ ∀ d : Byte, actuate d (-256) = ⟨d, 0b10#2, true⟩ :=
  ⟨by decide, by decide, by decide, fun _ => rfl⟩
/-- V-PID-9 with SATURATE = false: FAULT_MAG, and OUTPUT passed through. -/
theorem test_overrange : nextIs (exec .eval { State.initial cfgPass with tickCount := 488, setpoint := 255 })
    (fun t => t.faultMag && t.output == 293 && t.outSat && t.dir == 0b01#2) = true := by decide
/-- V-RD-1, V-RD-2, V-RD-3, V-RD-4. -/
theorem test_regRead : regRead 0x0#4 { s0 with setpoint := -255 } = 0xFFFFFF01#32 ∧
    regRead 0x7#4 { s0 with pwmMag := 69, dir := 0b10#2 } = 0x00000245#32 ∧
    regRead 0x8#4 { s0 with lastLevel := true, tickCount := 488, outSat := true } = 0x00000007#32 ∧
    regRead 0xC#4 s0 = 0x00000000#32 := by decide
/-- V-DEC-10: an illegal word sets FAULT_ILLEGAL and counts no edge. -/
theorem test_illegal_word : step { s0 with port := [.command .poller 0x19] } =
    .next { s0 with faultIllegal := true, answer := .cyc false } := rfl
/-- R250: a reset clears what stands, and leaves what is still to come. -/
theorem test_reset : step { s0 with setpoint := 100, faultIllegal := true, port := [.reset, .read 0] } =
    .next { s0 with port := [.read 0] } := rfl
/-- R87, R88: comments, a repeated block and a pseudo-instruction. -/
theorem test_assembler : assembleText cfg
    (['I', 'N', 'C', ' ', ';', 'u', 'p', '\n', '.', 'r', 'e', 'p', ' ', '2', '\n'] ++
      ['P', 'O', 'L', 'L', ' ', '1', '\n', '.', 'e', 'n', 'd', 'r']) =
    some [0x04, 0x09, 0x03, 0x09, 0x03] := by decide
/-- R87: `.byte` emits a raw word; a `.rep` left open is no program. -/
theorem test_assembler_byte : parseLine ['.', 'b', 'y', 't', 'e', ' ', '0', 'x', '1', '9'] = some (.byte 0x19) ∧
    assemble cfg [.rep 2, .pulse] = none := by decide

/-! ### Witnesses: the hypotheses of each obligation are met -/

/-- OnlySixWordsAreLegal, IllegalWordSetsFaultIllegal: words at the edges of the three cases. -/
theorem witness_illegal_words :
    ({ s0 with port := [.command .poller 0x10] }).port = .command .poller 0x10 :: [] ∧
    legalWord 0x10 = false ∧ decode 0x10 = .error .nonzeroZ ∧ legalWord 0x0F = false ∧
    decode 0x0F = .error .strayLevel ∧ legalWord 0x06 = false ∧ decode 0x06 = .error .reservedOp ∧
    legalWord 0x00 = false ∧ decode 0x00 = .error .reservedOp := by decide
/-- DecodeFollowsThePseudocode: a word for each clause. -/
theorem witness_decode_clauses :
    (0x10#8).toNat / 16 ≠ 0 ∧ ((0x09#8).toNat / 16 = 0 ∧ (0x09#8).toNat % 8 = 1) ∧
    ((0x0F#8).toNat / 16 = 0 ∧ (0x0F#8).toNat % 8 ≠ 1 ∧ (0x0F#8).toNat / 8 % 2 = 1) ∧ (0x07#8).toNat = 7 := by decide
/-- AssemblerRepeatsBlocks, with a block inside the repeated lines. -/
theorem witness_assembler_blocks :
    assemble cfg [.rep 2, .command .tick, .endr] = some [0x02, 0x02] ∧ assemble cfg [.pulse] = some [0x09, 0x01] := by
  decide
/-- StepRunsTheDecodedCommand. -/
theorem witness_step_runs :
    ({ s0 with port := [.command .upTrigger 0x04, .reset] }).port = .command .upTrigger 0x04 :: [.reset] ∧
    decode 0x04 = .ok .inc := by decide
/-- IdleStepChangesNothing. -/
theorem witness_idle : s0.port = [] := by decide
/-- PresenterMakesNoDifference. -/
theorem witness_presenter :
    [Event.command .poller 0x02, .reset].map withoutAgent = [Event.command .downTrigger 0x02, .reset].map withoutAgent := by
  decide
/-- EventsSeeOnlyEarlierEvents. -/
theorem witness_prefix : performEvents [.command .tickSource 0x02] s0 =
    .next { s0 with tickCount := 1, answer := .cyc false } := rfl

/-- Two different interleavings of one SAMPLE, two TICKs and an INC. -/
def orderA : List Event :=
  [.command .poller 0x09, .command .tickSource 0x02, .command .upTrigger 0x04, .command .tickSource 0x02]

/-- The other order. -/
def orderB : List Event :=
  [.command .tickSource 0x02, .command .tickSource 0x02, .command .upTrigger 0x04, .command .poller 0x09]

/-- InterleavingsOfIndependentAgentsAgree. -/
theorem witness_interleavings : orderA ≠ orderB ∧
    (∀ e ∈ orderA, ∃ a w, e = .command a w) ∧ (∀ e ∈ orderB, ∃ a w, e = .command a w) ∧
    Interleaving (fun a => streamOf a orderA) orderB ∧ streamOf .poller orderA = [0x09] ∧
    streamOf .tickSource orderA = [0x02, 0x02] ∧ streamOf .upTrigger orderA = [0x04] ∧
    streamOf .downTrigger orderA = [] := by
  refine ⟨by decide, ?_, ?_, ?_, by decide, by decide, by decide, by decide⟩
  · simp [orderA]
  · simp [orderB]
  · intro a; cases a <;> decide
/-- InterleavingsOfIndependentAgentsAgree: with a DEC of the down trigger in place of the INC. -/
theorem witness_interleavings_dec :
    let es : List Event := [.command .downTrigger 0x05, .command .poller 0x01]
    let fs : List Event := [.command .poller 0x01, .command .downTrigger 0x05]
    es ≠ fs ∧ (∀ e ∈ es, ∃ a w, e = .command a w) ∧ (∀ e ∈ fs, ∃ a w, e = .command a w) ∧
    Interleaving (fun a => streamOf a es) fs ∧ streamOf .poller es = [0x01] ∧ streamOf .tickSource es = [] ∧
    streamOf .upTrigger es = [] ∧ streamOf .downTrigger es = [0x05] := by
  refine ⟨by decide, by simp, by simp, ?_, by decide, by decide, by decide, by decide⟩
  intro a; cases a <;> decide
/-- IndependentCommandsCommute. -/
theorem witness_commute : Instr.sample1 ≠ .eval ∧ Instr.tick ≠ .eval ∧ presenter .sample1 ≠ presenter .tick ∧
    ¬(Instr.sample1 = .inc ∧ Instr.tick = .dec) ∧ ¬(Instr.sample1 = .dec ∧ Instr.tick = .inc) := by decide
/-- CycOnlyForAPerformedCycle. -/
theorem witness_cyc : ({ atBoundary with port := [.command .poller 0x03] }).port = .command .poller 0x03 :: [] := by
  decide

/-- Events without a reset or a performed cycle: two clean pulses, a TICK, an EVAL that finds no boundary, a read. -/
def noCycleEvents : List Event :=
  [.command .poller 0x09, .command .tickSource 0x02, .command .poller 0x01, .command .poller 0x03, .read 0,
    .command .poller 0x09, .command .poller 0x09, .command .poller 0x01]

theorem noCycleEvents_noCycle : NoCycle noCycleEvents s0 := by unfold NoCycle; decide

/-- PulseCountGrowsByRisingPairs, CleanPulsesAreAllCounted. -/
theorem witness_sample_sequence : Event.reset ∉ noCycleEvents ∧ NoCycle noCycleEvents s0 ∧
    levelsOf noCycleEvents = [(0, 0), (1, 0)].flatMap
      (fun p : Nat × Nat => List.replicate (p.1 + 1) true ++ List.replicate (p.2 + 1) false) ∧
    s0.pulseCount = 0 ∧ s0.lastLevel = false ∧ [(0, 0), (1, 0)].length < 65536 :=
  ⟨by decide, noCycleEvents_noCycle, by decide, by decide, by decide, by decide⟩
/-- OnlyEdgesAndCyclesChangePulseCount. -/
theorem witness_pulse_change : ∃ t, step { s0 with port := [.command .poller 0x09] } = .next t ∧
    t.pulseCount ≠ s0.pulseCount := ⟨_, rfl, by decide⟩
/-- CycleTakesAtLeastTheThreshold: two ticks reach a threshold of two. -/
theorem witness_threshold :
    NoCycle [.command .tickSource 0x02, .command .tickSource 0x02] (State.initial cfgShort) ∧
    (State.initial cfgShort).tickCount = 0 ∧
    nextIs (performEvents [.command .tickSource 0x02, .command .tickSource 0x02] (State.initial cfgShort))
      boundary = true := ⟨by unfold NoCycle; decide, by decide, by decide⟩
/-- EvalWithoutBoundaryChangesNothing, EvalPerformsOneMeasurementCycle, at the last tick below the threshold. -/
theorem witness_below_threshold : ({ s0 with tickCount := 487 }).tickCount.toNat < s0.config.tickThreshold := by decide
/-- EvalPerformsOneMeasurementCycle, CycleDiscardsExtraTicks, RpmIsPulsesTimesSixtyOverPpr, ErrorIsSetpointMinusRpm,
IntegralAccumulatesAndSaturates, OutputSaturatesAndOutSatReports: at the threshold, and above it. -/
theorem witness_at_threshold : atBoundary.config.tickThreshold ≤ atBoundary.tickCount.toNat ∧
    s0.config.tickThreshold ≤ ({ s0 with tickCount := 65535 }).tickCount.toNat := by decide
/-- EvalPerformsOneMeasurementCycle: an output of 255 stays in range, one of 256 does not, and a sum leaves the
accumulator. -/
theorem witness_output_range : (saturate cfgPass 255).natAbs ≤ 255 ∧ 255 < (saturate cfgPass 256).natAbs ∧
    2147483647 < ({ s0 with integral := 2147483647 }).integral.toInt + 1 := by decide
/-- EveryEdgeAndTickIsCountedOnce, over a cycle that is performed. -/
theorem witness_counted_once :
    Event.reset ∉ cycleEvents cfgShort 1 ∧
    (State.initial cfgShort).pulseCount.toNat + risingPairs false (levelsOf (cycleEvents cfgShort 1)) < 65536 ∧
    (State.initial cfgShort).tickCount.toNat + ticksIn (cycleEvents cfgShort 1) < 65536 := by decide
/-- RpmIsPulsesTimesSixtyOverPpr, RpmIsMonotoneAndSteps. -/
theorem witness_rpm : (65535 : Nat) ≤ 65535 ∧ ({ cfg with ppr := 1, ppr_range := by decide } : Config).ppr = 1 ∧
    (3 : Nat) ≤ 7 ∧ cfg.ppr = 20 := by decide
/-- ErrorIsSetpointMinusRpm: the extreme operands. -/
theorem witness_error : (-255 : Int) ≤ -255 ∧ (-255 : Int) ≤ 255 ∧ (3932100 : Nat) ≤ 3932100 := by decide
/-- IntegralWindsUpWithoutPulses. -/
theorem witness_windup : ({ s0 with setpoint := 100 }).tickCount = 0 ∧ ({ s0 with setpoint := 100 }).pulseCount = 0 := by
  decide
/-- ControllerStatePersists, ActuatorOutputsHoldBetweenCycles: a performed cycle changes them. -/
theorem witness_cycle_changes :
    ∃ t, step { atBoundary with setpoint := 100, port := [.command .poller 0x03] } = .next t ∧
      t.integral ≠ atBoundary.integral ∧ t.pwmMag ≠ atBoundary.pwmMag := ⟨_, rfl, by decide, by decide⟩
/-- CycleValuesStayInRange, StepKeepsTheInvariant: the reset state, and the state of V-EVAL-2, meet the invariant. -/
theorem witness_invariant : s0.Inv ∧
    ({ s0 with rpm := 60, integral := -60, prevError := -60, output := -69, pwmMag := 69, dir := 0b10#2 } : State).Inv ∧
    ∃ t, step s0 = .next t := by
  refine ⟨?_, ?_, _, rfl⟩ <;> constructor <;> decide
/-- ActuateMapsSignAndMagnitude: both sides of the bound. -/
theorem witness_actuate : (255 : Int).natAbs ≤ 255 ∧ 255 < (-256 : Int).natAbs := by decide
/-- OverrangeRaisesFaultMag, in both settings of SATURATE. -/
theorem witness_overrange :
    (∀ c ∈ [cfg, cfgPass],
      c.tickThreshold ≤ ({ State.initial c with tickCount := 488, setpoint := 255 }).tickCount.toNat ∧
      255 < (cycleRaw { State.initial c with tickCount := 488, setpoint := 255 }).natAbs) ∧
    cfgPass.saturate = false ∧ cfg.saturate = true := by decide
/-- SaturationKeepsFaultMagClear: its next step performs a cycle. -/
theorem witness_saturation :
    s0.config.saturate = true ∧ atBoundary.faultMag = false ∧
    nextPerformsCycle { atBoundary with port := [.command .poller 0x03] } ∧
    ∃ t, step { atBoundary with port := [.command .poller 0x03] } = .next t :=
  ⟨by decide, by decide, ⟨⟨.poller, [], rfl⟩, by decide⟩, _, rfl⟩
/-- ReachableSetpointsAreExact, RepeatedIncClampsAtTheMaximum, IncDecOrderMattersOnlyNearABound. -/
theorem witness_setpoint : s0.setpoint = 0 ∧ (-255 : Int) ≤ ({ s0 with setpoint := -255 }).setpoint.toInt ∧
    ({ s0 with setpoint := 255 }).setpoint.toInt ≤ 255 := by decide
/-- ReadPortReturnsTheRegisters: the first and the last reserved index. -/
theorem witness_reserved_index : 9 ≤ (0x9#4).toNat ∧ 9 ≤ (0xF#4).toNat := by decide
/-- ReadHasNoSideEffect. -/
theorem witness_two_reads :
    ({ s0 with port := [.read 0x3, .read 0x3] }).port = .read 0x3 :: .read 0x3 :: [] := by decide
/-- OnlyResetClearsStickyBits: reset clears each of the three. -/
theorem witness_sticky :
    ∃ t, step { s0 with intSat := true, faultIllegal := true, faultMag := true, port := [.reset] } = .next t ∧
      t.intSat = false ∧ t.faultIllegal = false ∧ t.faultMag = false := ⟨_, rfl, rfl, rfl, rfl⟩
/-- CommandsDoNotReadOutputsOrFlags: two states that differ in every register the statement leaves open. -/
theorem witness_flags_differ :
    let s' := { atBoundary with
      rpm := 7, output := 9, pwmMag := 3, dir := 0b01#2, outSat := true, intSat := true, faultIllegal := true, faultMag := true }
    s' ≠ atBoundary ∧ s'.config = atBoundary.config ∧ s'.setpoint = atBoundary.setpoint ∧
    s'.pulseCount = atBoundary.pulseCount ∧ s'.tickCount = atBoundary.tickCount ∧
    s'.lastLevel = atBoundary.lastLevel ∧ s'.integral = atBoundary.integral ∧ s'.prevError = atBoundary.prevError := by
  decide
/-- ResetEventSetsEveryRegister. -/
theorem witness_reset_event : ({ s0 with port := [.reset, .read 0x1] }).port = .reset :: [.read 0x1] := by decide
/-- OutputsAreNeutralAfterReset. -/
theorem witness_neutral : NoCycle [.reset, .command .poller 0x03, .command .upTrigger 0x04] { s0 with pwmMag := 9 } := by
  unfold NoCycle; decide
/-- ConfigurationNeverChanges. -/
theorem witness_configuration : ∃ t, step { s0 with port := [.reset] } = .next t := ⟨_, rfl⟩
/-- BadConfigurationsAreRefused: each bound, from both sides. -/
theorem witness_parameters :
    ((0 : Nat) < 1 ∧ (65535 : Nat) < 65536) ∧ ((1 : Nat) ≤ 1 ∧ (65535 : Nat) ≤ 65535) := by decide

end Sys2Proof.Tests
end

section
/-! SUPPORT. `tdiv` (R12) as the rational quotient rounded toward zero. -/

namespace Sys2Proof.Machine

/-- R12: rounding toward zero is the floor of a quotient that is not negative, and the ceiling of one that is. -/
theorem tdiv_natCast_eq_floor_or_ceil (n : Int) {d : Nat} (hd : 0 < d) :
    tdiv n d = if 0 ≤ (n : ℚ) / d then ⌊(n : ℚ) / d⌋ else ⌈(n : ℚ) / d⌉ := by
  have hsign : 0 ≤ (n : ℚ) / d ↔ 0 ≤ n := by
    rw [le_div_iff₀ (Nat.cast_pos.2 hd), zero_mul, Int.cast_nonneg_iff]
  rw [tdiv_eq_int_tdiv n d (Int.natCast_pos.2 hd), Rat.floor_intCast_div_natCast, Rat.ceil_intCast_div_natCast]
  simp only [hsign]
  split_ifs with hn
  · exact Int.tdiv_eq_ediv_of_nonneg hn
  · rw [← Int.tdiv_eq_ediv_of_nonneg (by omega), Int.neg_tdiv, neg_neg]

end Sys2Proof.Machine
end

section
/-! SUPPORT. Nothing the block does touches the configuration (R6, R49). -/

namespace Sys2Proof.Machine

@[simp] theorem effect_config (i : Instr) (s : State) : (effect i s).config = s.config := by
  cases i with
  | sample0 => exact sampleLevel_config s false
  | sample1 => exact sampleLevel_config s true
  | tick => rfl
  | eval =>
    rw [effect]
    split
    · exact performCycle_config s
    · exact respond_config s false
  | inc => exact adjustSetpoint_config s spStep
  | dec => exact adjustSetpoint_config s (-spStep)

@[simp] theorem eventEffect_config (e : Event) (s : State) : (eventEffect e s).config = s.config := by
  cases e with
  | command a w =>
    rw [eventEffect]
    split
    · exact effect_config _ s
    · exact rejectWord_config s
  | reset => exact performReset_config s
  | read idx => exact performRead_config s idx

end Sys2Proof.Machine
end

section
/-! PROOFS. The statements of 00_scope.md: the gains (R8) and the configuration (R6). -/

namespace Sys2Proof.Machine

/-- R8: the sum with the rational gains is the model's exact sum of integers over the common denominator. -/
theorem gains_sum_eq_quotient (e i ePrev : Int) :
    1 * (e : ℚ) + (1 / 10) * (i : ℚ) + (5 / 100) * ((e : ℚ) - (ePrev : ℚ)) =
      ((kpNum * e + kiNum * i + kdNum * (e - ePrev) : Int) : ℚ) / (20 : Nat) := by
  rw [kpNum, kiNum, kdNum]
  push_cast
  ring

/-- Settles O33: over the common denominator the sum is one quotient of integers, and `tdiv` rounds it toward zero. -/
theorem rawOutputIsTheExactSumTruncated : Obligations.RawOutputIsTheExactSumTruncated := by
  refine ⟨by norm_num [kpNum, gainDen], by norm_num [kiNum, gainDen], by norm_num [kdNum, gainDen], ?_⟩
  intro e i ePrev q
  have hq : q = ((kpNum * e + kiNum * i + kdNum * (e - ePrev) : Int) : ℚ) / (20 : Nat) :=
    gains_sum_eq_quotient e i ePrev
  rw [hq]
  exact tdiv_natCast_eq_floor_or_ceil _ (by decide)

/-- Settles O55, from all that a step can do: wait, or perform an event, and no event writes the configuration. -/
theorem configurationNeverChanges : Obligations.ConfigurationNeverChanges := by
  intro s t h
  obtain ⟨-, rfl⟩ | ⟨e, rest, -, rfl⟩ := step_cases h
  · rfl
  · rw [eventEffect_config, withPort_config]

end Sys2Proof.Machine
end

section
/-! SUPPORT. The word of a command, decoded (R82, R89). -/

namespace Sys2Proof

/-- R80, R81: a word whose Z field is 0b0000 is the command word with its other two fields. -/
theorem eq_commandWord_of_fieldZ {w : Byte} (hz : fieldZ w = 0b0000#4) :
    w = commandWord (fieldL w) (fieldOp w) := by
  revert w; decide

@[simp] theorem decode_encode (i : Instr) : decode (encode i) = .ok i := by
  cases i <;> decide

/-- A word that decodes to a command is that command's word. -/
theorem eq_encode_of_decode {w : Byte} {i : Instr} (h : decode w = .ok i) : w = encode i := by
  unfold decode at h
  split_ifs at h with hz hs hl ht he hi hd
  all_goals
    rw [eq_commandWord_of_fieldZ (not_not.1 hz)]
    injection h with h
    subst h
  · rw [hs]; cases fieldL w <;> rfl
  · rw [Bool.eq_false_iff.2 hl, ht]; rfl
  · rw [Bool.eq_false_iff.2 hl, he]; rfl
  · rw [Bool.eq_false_iff.2 hl, hi]; rfl
  · rw [Bool.eq_false_iff.2 hl, hd]; rfl

end Sys2Proof
end

section
/-! SUPPORT. Which registers a command and an event write (R30), said once: everything else is left unchanged. -/

namespace Sys2Proof.Machine

/-- EVAL, both ways (R122, R123). -/
theorem effect_eval_cases (s : State) :
    (boundary s = true ∧ effect .eval s = performCycle s) ∨
      (boundary s = false ∧ effect .eval s = respond false s) := by
  cases hb : boundary s with
  | true => exact .inl ⟨rfl, if_pos hb⟩
  | false => exact .inr ⟨rfl, if_neg (by simp [hb])⟩

/-- The registers that the rows of R30 give to a cycle-performing EVAL alone hold in `t` what they hold in `s`. -/
structure CycleRegistersKept (s t : State) : Prop where
  rpm : t.rpm = s.rpm
  integral : t.integral = s.integral
  prevError : t.prevError = s.prevError
  output : t.output = s.output
  pwmMag : t.pwmMag = s.pwmMag
  dir : t.dir = s.dir
  outSat : t.outSat = s.outSat
  intSat : t.intSat = s.intSat
  faultMag : t.faultMag = s.faultMag

theorem respond_cycleRegistersKept (b : Bool) (s : State) : CycleRegistersKept s (respond b s) := by
  constructor <;> rfl

theorem rejectWord_cycleRegistersKept (s : State) : CycleRegistersKept s (rejectWord s) := by
  constructor <;> rfl

theorem performRead_cycleRegistersKept (idx : BitVec 4) (s : State) : CycleRegistersKept s (performRead idx s) := by
  constructor <;> rfl

theorem adjustSetpoint_cycleRegistersKept (d : Int) (s : State) : CycleRegistersKept s (adjustSetpoint d s) := by
  constructor <;> rfl

/-- Only a performed cycle writes the controller, output and flag registers. -/
theorem effect_cycleRegisters (i : Instr) (s : State) :
    CycleRegistersKept s (effect i s) ∨ (i = .eval ∧ boundary s = true) := by
  cases i with
  | eval =>
    obtain ⟨hb, -⟩ | ⟨-, he⟩ := effect_eval_cases s
    · exact .inr ⟨rfl, hb⟩
    · rw [he]; exact .inl (respond_cycleRegistersKept false s)
  | inc => exact .inl (adjustSetpoint_cycleRegistersKept spStep s)
  | dec => exact .inl (adjustSetpoint_cycleRegistersKept (-spStep) s)
  | sample0 | sample1 | tick => left; constructor <;> rfl

theorem inc_or_dec_of_effect_setpoint_ne {i : Instr} {s : State} (h : (effect i s).setpoint ≠ s.setpoint) :
    i = .inc ∨ i = .dec := by
  cases i with
  | inc => exact .inl rfl
  | dec => exact .inr rfl
  | eval => obtain ⟨-, he⟩ | ⟨-, he⟩ := effect_eval_cases s <;> simp [he] at h
  | sample0 | sample1 | tick => exact absurd rfl h

/-- R34, R103: a rising edge, or a performed cycle. -/
theorem edge_or_cycle_of_effect_pulseCount_ne {i : Instr} {s : State}
    (h : (effect i s).pulseCount ≠ s.pulseCount) :
    (i = .sample1 ∧ s.lastLevel = false) ∨ (i = .eval ∧ boundary s = true) := by
  cases i with
  | sample1 =>
    refine .inl ⟨rfl, ?_⟩
    cases hl : s.lastLevel with
    | false => rfl
    | true => simp [effect, risingEdge, hl] at h
  | eval =>
    obtain ⟨hb, -⟩ | ⟨-, he⟩ := effect_eval_cases s
    · exact .inr ⟨rfl, hb⟩
    · simp [he] at h
  | sample0 | tick | inc | dec => exact absurd rfl h

theorem tick_or_eval_of_effect_tickCount_ne {i : Instr} {s : State} (h : (effect i s).tickCount ≠ s.tickCount) :
    i = .tick ∨ i = .eval := by
  cases i with
  | tick => exact .inl rfl
  | eval => exact .inr rfl
  | sample0 | sample1 | inc | dec => exact absurd rfl h

theorem sample_of_effect_lastLevel_ne {i : Instr} {s : State} (h : (effect i s).lastLevel ≠ s.lastLevel) :
    i = .sample0 ∨ i = .sample1 := by
  cases i with
  | sample0 => exact .inl rfl
  | sample1 => exact .inr rfl
  | eval => obtain ⟨-, he⟩ | ⟨-, he⟩ := effect_eval_cases s <;> simp [he] at h
  | tick | inc | dec => exact absurd rfl h

/-- No command raises or clears FAULT_ILLEGAL (R222, R251). -/
@[simp] theorem effect_faultIllegal (i : Instr) (s : State) : (effect i s).faultIllegal = s.faultIllegal := by
  cases i with
  | eval => obtain ⟨-, he⟩ | ⟨-, he⟩ := effect_eval_cases s <;> simp [he]
  | _ => rfl

/-- No command touches the events that wait (R68). -/
@[simp] theorem effect_port (i : Instr) (s : State) : (effect i s).port = s.port := by
  simpa [eventEffect] using eventEffect_port (.command .poller (encode i)) s

/-- R84: only a performed cycle responds cyc = 1. -/
theorem effect_answer (i : Instr) (s : State) :
    (effect i s).answer = .cyc (decide (i = .eval ∧ boundary s = true)) := by
  cases i with
  | eval => obtain ⟨hb, he⟩ | ⟨hb, he⟩ := effect_eval_cases s <;> simp [hb, he]
  | _ => rfl

/-- R44: a command never clears INT_SAT. -/
theorem effect_intSat_of_intSat {s : State} (i : Instr) (h : s.intSat = true) : (effect i s).intSat = true := by
  obtain hk | ⟨rfl, hb⟩ := effect_cycleRegisters i s
  · rw [hk.intSat, h]
  · simp [effect, hb, h]

/-- R44: a command never clears FAULT_MAG. -/
theorem effect_faultMag_of_faultMag {s : State} (i : Instr) (h : s.faultMag = true) :
    (effect i s).faultMag = true := by
  obtain hk | ⟨rfl, hb⟩ := effect_cycleRegisters i s
  · rw [hk.faultMag, h]
  · simp [effect, hb, h]

/-- What performing a command's word does, whoever presents it (R231). -/
@[simp] theorem eventEffect_command_encode (a : Agent) (i : Instr) (s : State) :
    eventEffect (.command a (encode i)) s = effect i s := by
  simp [eventEffect]

/-- An event that changes PULSE_COUNT is a SAMPLE 1 on a low last level, an EVAL that performs a cycle, or reset
(R34, R103). -/
theorem cause_of_eventEffect_pulseCount_ne {e : Event} {s : State}
    (h : (eventEffect e s).pulseCount ≠ s.pulseCount) :
    (∃ a, e = .command a 0x09#8) ∧ s.lastLevel = false ∨
      (∃ a, e = .command a 0x03#8) ∧ s.config.tickThreshold ≤ s.tickCount.toNat ∨ e = .reset := by
  cases e with
  | command a w =>
    rw [eventEffect] at h
    split at h
    next i hi =>
      obtain rfl := eq_encode_of_decode hi
      obtain ⟨rfl, hl⟩ | ⟨rfl, hb⟩ := edge_or_cycle_of_effect_pulseCount_ne h
      · exact .inl ⟨⟨a, rfl⟩, hl⟩
      · exact .inr (.inl ⟨⟨a, rfl⟩, (boundary_iff s).1 hb⟩)
    next => exact absurd (rejectWord_pulseCount s) h
  | reset => exact .inr (.inr rfl)
  | read idx => exact absurd (performRead_pulseCount s idx) h

/-- R44: an event other than reset clears none of the sticky bits. -/
theorem eventEffect_sticky {e : Event} (he : e ≠ .reset) (s : State) :
    (s.intSat = true → (eventEffect e s).intSat = true) ∧
    (s.faultIllegal = true → (eventEffect e s).faultIllegal = true) ∧
    (s.faultMag = true → (eventEffect e s).faultMag = true) := by
  cases e with
  | command a w =>
    rw [eventEffect]
    split
    next i _ => exact ⟨effect_intSat_of_intSat i, by simp, effect_faultMag_of_faultMag i⟩
    next => simp
  | reset => exact absurd rfl he
  | read idx => simp [eventEffect]

end Sys2Proof.Machine
end

section
/-! SUPPORT. The invariant of reachable states (R47): it holds at reset, and every event keeps it. -/

namespace Sys2Proof.Machine

/-- The invariant speaks of the configuration, of SETPOINT and of registers that a cycle alone writes. -/
theorem inv_of_cycleRegistersKept {s t : State} (hs : s.Inv) (hc : t.config = s.config)
    (hk : CycleRegistersKept s t) (hsp : ReachableSetpoint t.setpoint.toInt) : t.Inv where
  setpoint := hsp
  output_range := by rw [hc, hk.output]; exact hs.output_range
  mag_saturate := by rw [hc, hk.pwmMag, hk.output]; exact hs.mag_saturate
  dir_neutral := by rw [hk.dir, hk.output]; exact hs.dir_neutral
  dir_forward := by rw [hk.dir, hk.output]; exact hs.dir_forward
  dir_reverse := by rw [hk.dir, hk.output]; exact hs.dir_reverse
  dir_legal := by rw [hk.dir]; exact hs.dir_legal
  prevError := by rw [hk.prevError, hk.rpm]; exact hs.prevError
  rpm_range := by rw [hk.rpm]; exact hs.rpm_range
  no_faultMag := by rw [hc, hk.faultMag]; exact hs.no_faultMag
  mag_no_fault := by rw [hk.faultMag, hk.pwmMag, hk.output]; exact hs.mag_no_fault

theorem reachableSetpoint_zero : ReachableSetpoint 0 := by decide

/-- R46, R47: the invariant holds at reset, whatever the configuration. -/
theorem initial_inv (c : Config) : (State.initial c).Inv := by
  constructor
  case setpoint | prevError => exact reachableSetpoint_zero
  all_goals simp [State.initial]

/-- R250: the invariant holds after a reset event. -/
theorem performReset_inv (s : State) : (performReset s).Inv :=
  inv_of_cycleRegistersKept (initial_inv s.config) rfl (by constructor <;> rfl) (initial_inv s.config).setpoint

/-- R202: a step of 25 from a reachable setpoint, clamped at the bounds, ends in a reachable setpoint. -/
theorem reachableSetpoint_clamp {v d : Int} (hv : ReachableSetpoint v) (hd : d = 25 ∨ d = -25) :
    ReachableSetpoint (max (-255) (min 255 (v + d))) := by
  unfold ReachableSetpoint at *; omega

/-- The setpoint after INC or DEC, as a number (R200, R201). -/
theorem adjustSetpoint_setpoint_toInt (d : Int) (s : State) :
    (adjustSetpoint d s).setpoint.toInt = max (-255) (min 255 (s.setpoint.toInt + d)) := by
  have hc : clamp (signedValue s.setpoint + d) spMin spMax = max (-255) (min 255 (s.setpoint.toInt + d)) :=
    clamp_eq_max_min (by decide)
  rw [adjustSetpoint_setpoint, hc, toInt_signedBits_16 (by omega) (by omega)]

/-- INC and DEC keep the invariant. -/
theorem adjustSetpoint_inv {s : State} {d : Int} (hs : s.Inv) (hd : d = 25 ∨ d = -25) :
    (adjustSetpoint d s).Inv := by
  refine inv_of_cycleRegistersKept hs rfl (adjustSetpoint_cycleRegistersKept d s) ?_
  rw [adjustSetpoint_setpoint_toInt]
  exact reachableSetpoint_clamp hs.setpoint hd

/-- R164: with SATURATE = true the output of a cycle lies in [-255, 255]. -/
theorem cycleOutput_natAbs_le_of_saturate {s : State} (h : s.config.saturate = true) :
    (cycleOutput s).natAbs ≤ 255 := by
  rw [cycleOutput, saturate_eq, if_pos h]; omega

/-- R180: a magnitude that is not out of range is the absolute value of the output. -/
theorem cycleActuation_mag_of_not_overrange {s : State} (h : (cycleActuation s).overrange = false) :
    (cycleActuation s).mag.toNat = (cycleOutput s).natAbs := by
  obtain ⟨-, ⟨-, -, hm⟩ | ⟨-, ho, -⟩⟩ := cycleActuation_cases s
  · exact hm
  · simp [h] at ho

/-- R183: with SATURATE = true no cycle is overrange. -/
theorem cycleActuation_overrange_of_saturate {s : State} (h : s.config.saturate = true) :
    (cycleActuation s).overrange = false := by
  have hle := cycleOutput_natAbs_le_of_saturate h
  obtain ⟨-, ⟨-, ho, -⟩ | ⟨hgt, -, -⟩⟩ := cycleActuation_cases s
  · exact ho
  · omega

/-- R41, R180: direction lines that are chosen by a sign tell it, and both are never set. -/
theorem dir_iff_sign {d : BitVec 2} {v : Int}
    (h : d = if 0 < v then 0b01#2 else if v < 0 then 0b10#2 else 0b00#2) :
    (d = 0b00#2 ↔ v = 0) ∧ (d = 0b01#2 ↔ 0 < v) ∧ (d = 0b10#2 ↔ v < 0) ∧ d ≠ 0b11#2 := by
  subst h
  refine ⟨?_, ?_, ?_, ?_⟩ <;> split_ifs <;> simp <;> omega

/-- The direction lines after a cycle tell the sign of OUTPUT (R41, R180). -/
theorem performCycle_dir_iff_sign (s : State) :
    ((performCycle s).dir = 0b00#2 ↔ (performCycle s).output.toInt = 0) ∧
    ((performCycle s).dir = 0b01#2 ↔ 0 < (performCycle s).output.toInt) ∧
    ((performCycle s).dir = 0b10#2 ↔ (performCycle s).output.toInt < 0) ∧ (performCycle s).dir ≠ 0b11#2 := by
  rw [performCycle_dir, performCycle_output_toInt]
  exact dir_iff_sign (cycleActuation_cases s).1

/-- A performed cycle keeps the invariant: its values are those of R122, whatever the cycle before left. -/
theorem performCycle_inv {s : State} (hs : s.Inv) : (performCycle s).Inv := by
  obtain ⟨hneutral, hforward, hreverse, hlegal⟩ := performCycle_dir_iff_sign s
  exact
    { setpoint := by rw [performCycle_setpoint]; exact hs.setpoint
      output_range := fun h => by
        rw [performCycle_config] at h
        have := cycleOutput_natAbs_le_of_saturate h
        rw [performCycle_output_toInt]; omega
      mag_saturate := fun h => by
        rw [performCycle_config] at h
        rw [performCycle_pwmMag, performCycle_output_toInt]
        exact cycleActuation_mag_of_not_overrange (cycleActuation_overrange_of_saturate h)
      dir_neutral := hneutral
      dir_forward := hforward
      dir_reverse := hreverse
      dir_legal := hlegal
      prevError := by
        rw [performCycle_prevError_toInt, performCycle_rpm_toNat, cycleError_eq, sub_add_cancel]
        exact hs.setpoint
      rpm_range := by rw [performCycle_rpm_toNat]; exact cycleRpm_le s
      no_faultMag := fun h => by
        rw [performCycle_config] at h
        rw [performCycle_faultMag, hs.no_faultMag h, cycleActuation_overrange_of_saturate h]; rfl
      mag_no_fault := fun h => by
        rw [performCycle_faultMag, Bool.or_eq_false_iff] at h
        rw [performCycle_pwmMag, performCycle_output_toInt]
        exact cycleActuation_mag_of_not_overrange h.2 }

/-- Every command keeps the invariant. -/
theorem effect_inv (i : Instr) {s : State} (hs : s.Inv) : (effect i s).Inv := by
  cases i with
  | eval =>
    obtain ⟨-, he⟩ | ⟨-, he⟩ := effect_eval_cases s <;> rw [he]
    · exact performCycle_inv hs
    · exact inv_of_cycleRegistersKept hs rfl (respond_cycleRegistersKept false s) hs.setpoint
  | inc => exact adjustSetpoint_inv hs (.inl rfl)
  | dec => exact adjustSetpoint_inv hs (.inr rfl)
  | sample0 | sample1 | tick => exact inv_of_cycleRegistersKept hs rfl (by constructor <;> rfl) hs.setpoint

/-- Every event keeps the invariant: a command, an illegal word, a reset, a read. -/
theorem eventEffect_inv (e : Event) {s : State} (hs : s.Inv) : (eventEffect e s).Inv := by
  cases e with
  | command a w =>
    rw [eventEffect]
    split
    · exact effect_inv _ hs
    · exact inv_of_cycleRegistersKept hs rfl (rejectWord_cycleRegistersKept s) hs.setpoint
  | reset => exact performReset_inv s
  | read idx => exact inv_of_cycleRegistersKept hs rfl (performRead_cycleRegistersKept idx s) hs.setpoint

end Sys2Proof.Machine
end

section
/-! SUPPORT. What a command reads (R45): states that agree on it agree on what the command computes. -/

namespace Sys2Proof.Machine

/-- Two states that agree on what the commands read: the configuration, SETPOINT, the counters, LAST_LEVEL, INTEGRAL and
PREV_ERROR (R45). -/
structure InputsAgree (s s' : State) : Prop where
  config : s'.config = s.config
  setpoint : s'.setpoint = s.setpoint
  pulseCount : s'.pulseCount = s.pulseCount
  tickCount : s'.tickCount = s.tickCount
  lastLevel : s'.lastLevel = s.lastLevel
  integral : s'.integral = s.integral
  prevError : s'.prevError = s.prevError

section
variable {s s' : State} (h : InputsAgree s s')
include h

theorem boundary_congr : boundary s' = boundary s := by
  rw [boundary, boundary, h.config, h.tickCount]

theorem cycleRpm_congr : cycleRpm s' = cycleRpm s := by
  rw [cycleRpm, cycleRpm, h.config, h.pulseCount]

theorem cycleError_congr : cycleError s' = cycleError s := by
  rw [cycleError, cycleError, h.setpoint, cycleRpm_congr h]

theorem cycleIntegral_congr : cycleIntegral s' = cycleIntegral s := by
  rw [cycleIntegral, cycleIntegral, h.integral, cycleError_congr h]

theorem cycleRaw_congr : cycleRaw s' = cycleRaw s := by
  rw [cycleRaw, cycleRaw, cycleError_congr h, cycleIntegral_congr h, h.prevError]

theorem cycleOutput_congr : cycleOutput s' = cycleOutput s := by
  rw [cycleOutput, cycleOutput, h.config, cycleRaw_congr h]

/-- The direction depends on the output alone, not on the draw (R180). -/
theorem cycleActuation_dir_congr : (cycleActuation s').dir = (cycleActuation s).dir := by
  rw [(cycleActuation_cases s').1, (cycleActuation_cases s).1, cycleOutput_congr h]

theorem performCycle_inputsAgree : InputsAgree (performCycle s) (performCycle s') := by
  constructor <;>
    simp [h.config, h.setpoint, h.lastLevel, cycleError_congr h, cycleIntegral_congr h]

theorem adjustSetpoint_inputsAgree (d : Int) : InputsAgree (adjustSetpoint d s) (adjustSetpoint d s') := by
  constructor <;>
    simp [h.config, h.setpoint, h.pulseCount, h.tickCount, h.lastLevel, h.integral, h.prevError]

theorem sampleLevel_inputsAgree (l : Bool) : InputsAgree (sampleLevel l s) (sampleLevel l s') := by
  constructor <;>
    simp [h.config, h.setpoint, h.pulseCount, h.tickCount, h.lastLevel, h.integral, h.prevError]

/-- R45: states that agree on what the commands read agree on it after any command. -/
theorem effect_inputsAgree (i : Instr) : InputsAgree (effect i s) (effect i s') := by
  cases i with
  | sample0 => exact sampleLevel_inputsAgree h false
  | sample1 => exact sampleLevel_inputsAgree h true
  | inc => exact adjustSetpoint_inputsAgree h spStep
  | dec => exact adjustSetpoint_inputsAgree h (-spStep)
  | tick =>
    refine ⟨h.config, h.setpoint, h.pulseCount, ?_, h.lastLevel, h.integral, h.prevError⟩
    simp only [effect, respond, h.tickCount]
  | eval =>
    rw [effect, effect, boundary_congr h]
    split
    · exact performCycle_inputsAgree h
    · exact ⟨h.config, h.setpoint, h.pulseCount, h.tickCount, h.lastLevel, h.integral, h.prevError⟩

/-- R84: the response is told by the detector alone. -/
theorem effect_answer_congr (i : Instr) : (effect i s').answer = (effect i s).answer := by
  rw [effect_answer, effect_answer, boundary_congr h]

end

end Sys2Proof.Machine
end

section
/-! SUPPORT. Commands of different agents that commute (R48), and the agents' streams (R68). -/

namespace Sys2Proof.Machine

/-- Two commands that R48 lets be swapped: of different agents, neither of them EVAL, and not INC with DEC (R203). -/
structure Independent (i j : Instr) : Prop where
  left_ne_eval : i ≠ .eval
  right_ne_eval : j ≠ .eval
  presenter_ne : presenter i ≠ presenter j
  not_inc_dec : ¬(i = .inc ∧ j = .dec)
  not_dec_inc : ¬(i = .dec ∧ j = .inc)

/-- SAMPLE commutes with the commands of the other agents. -/
theorem sampleLevel_comm_effect (l : Bool) {j : Instr} (hj : presenter j ≠ .poller) (s : State) :
    sampleLevel l (effect j s) = effect j (sampleLevel l s) := by
  cases j with
  | tick | inc | dec => rfl
  | sample0 | sample1 | eval => exact absurd rfl hj

/-- TICK commutes with every command but EVAL. -/
theorem effect_tick_comm_effect {j : Instr} (hj : j ≠ .eval) (s : State) :
    effect .tick (effect j s) = effect j (effect .tick s) := by
  cases j with
  | eval => exact absurd rfl hj
  | _ => rfl

/-- INC and DEC commute with SAMPLE and TICK. -/
theorem adjustSetpoint_comm_effect (d : Int) {j : Instr} (he : j ≠ .eval) (hi : j ≠ .inc) (hd : j ≠ .dec)
    (s : State) : adjustSetpoint d (effect j s) = effect j (adjustSetpoint d s) := by
  cases j with
  | sample0 | sample1 | tick => rfl
  | eval => exact absurd rfl he
  | inc => exact absurd rfl hi
  | dec => exact absurd rfl hd

/-- Independent commands write different registers, and neither reads what the other writes. -/
theorem effect_comm {i j : Instr} (h : Independent i j) (s : State) :
    effect i (effect j s) = effect j (effect i s) := by
  obtain ⟨hi, hj, hp, hid, hdi⟩ := h
  cases i with
  | eval => exact absurd rfl hi
  | sample0 => exact sampleLevel_comm_effect false hp.symm s
  | sample1 => exact sampleLevel_comm_effect true hp.symm s
  | tick => exact effect_tick_comm_effect hj s
  | inc => exact adjustSetpoint_comm_effect spStep hj (fun h => hp (h ▸ rfl)) (fun h => hid ⟨rfl, h⟩) s
  | dec => exact adjustSetpoint_comm_effect (-spStep) hj (fun h => hdi ⟨rfl, h⟩) (fun h => hp (h ▸ rfl)) s

/-- The words of an agent's stream are those that it presents. -/
theorem mem_streamOf {a : Agent} {w : Byte} {es : List Event} : w ∈ streamOf a es ↔ .command a w ∈ es := by
  rw [streamOf, List.mem_filterMap]
  constructor
  · rintro ⟨e, he, hw⟩
    cases e with
    | command b v =>
      obtain ⟨rfl, rfl⟩ : b = a ∧ v = w := by simpa using hw
      exact he
    | reset => simp at hw
    | read idx => simp at hw
  · exact fun h => ⟨_, h, by simp⟩

theorem streamOf_append (a : Agent) (es fs : List Event) :
    streamOf a (es ++ fs) = streamOf a es ++ streamOf a fs := List.filterMap_append

theorem streamOf_cons_self (a : Agent) (w : Byte) (es : List Event) :
    streamOf a (.command a w :: es) = w :: streamOf a es := by simp [streamOf]

theorem streamOf_cons_of_ne {a b : Agent} (h : b ≠ a) (w : Byte) (es : List Event) :
    streamOf a (.command b w :: es) = streamOf a es := by simp [streamOf, h]

/-- The first word of an agent's stream stands in the list after events that the agent does not present. -/
theorem exists_split_of_streamOf_eq_cons {a : Agent} {w : Byte} {ws : List Byte} {fs : List Event}
    (h : streamOf a fs = w :: ws) :
    ∃ pre post, fs = pre ++ .command a w :: post ∧ streamOf a pre = [] := by
  obtain ⟨pre, e, post, rfl, hpre, he, -⟩ := List.filterMap_eq_cons_iff.1 h
  cases e with
  | command b v =>
    obtain ⟨rfl, rfl⟩ : b = a ∧ v = w := by simpa using he
    exact ⟨pre, post, rfl, List.filterMap_eq_nil_iff.2 hpre⟩
  | reset => simp at he
  | read idx => simp at he

/-- With one word less at the head of an agent's stream, the other streams are the same. -/
theorem streamOf_remove {a : Agent} {w : Byte} {pre post es : List Event} (hpre : streamOf a pre = [])
    (h : ∀ b, streamOf b (pre ++ .command a w :: post) = streamOf b (.command a w :: es)) (b : Agent) :
    streamOf b (pre ++ post) = streamOf b es := by
  have hb := h b
  rw [streamOf_append] at hb ⊢
  obtain rfl | hab := eq_or_ne a b
  · simpa [hpre, streamOf_cons_self] using hb
  · simpa [streamOf_cons_of_ne hab] using hb

/-- Commands of which no agent presents any are none. -/
theorem eq_nil_of_streamOf_eq_nil {fs : List Event} (hfs : ∀ e ∈ fs, ∃ a w, e = .command a w)
    (h : ∀ a, streamOf a fs = []) : fs = [] := by
  refine List.eq_nil_iff_forall_not_mem.2 fun e he => ?_
  obtain ⟨a, w, rfl⟩ := hfs e he
  rw [← mem_streamOf, h a] at he
  exact absurd he List.not_mem_nil

/-- An event that commutes with each of a list may be performed before them instead of after. -/
theorem performEvents_move_front {e : Event} {pre : List Event} (post : List Event)
    (h : ∀ f ∈ pre, ∀ s, eventEffect e (eventEffect f s) = eventEffect f (eventEffect e s)) (s : State) :
    performEvents (pre ++ e :: post) s = performEvents (e :: (pre ++ post)) s := by
  induction pre generalizing s with
  | nil => rfl
  | cons f pre ih =>
    have hf := h f List.mem_cons_self s
    have ih := ih (fun g hg => h g (List.mem_cons_of_mem f hg)) (eventEffect f s)
    rw [List.cons_append, performEvents_cons, ih, performEvents_cons, hf, performEvents_cons,
      List.cons_append, performEvents_cons]

/-- R68: where commands of different agents commute, the agents' streams fix the outcome.  The first event of one order
is moved to the front of the other. -/
theorem performEvents_eq_of_streams {es fs : List Event} (hes : ∀ e ∈ es, ∃ a w, e = .command a w)
    (hfs : ∀ e ∈ fs, ∃ a w, e = .command a w) (hst : ∀ a, streamOf a fs = streamOf a es)
    (hcomm : ∀ a b v w, a ≠ b → .command a v ∈ es → .command b w ∈ es → ∀ s,
      eventEffect (.command a v) (eventEffect (.command b w) s) =
        eventEffect (.command b w) (eventEffect (.command a v) s)) (s : State) :
    performEvents es s = performEvents fs s := by
  induction es generalizing fs s with
  | nil => rw [eq_nil_of_streamOf_eq_nil hfs hst]
  | cons e es ih =>
    obtain ⟨a, w, rfl⟩ := hes e List.mem_cons_self
    obtain ⟨pre, post, rfl, hpre⟩ := exists_split_of_streamOf_eq_cons ((hst a).trans (streamOf_cons_self a w es))
    have hmove : ∀ f ∈ pre, ∀ u, eventEffect (.command a w) (eventEffect f u) =
        eventEffect f (eventEffect (.command a w) u) := by
      intro f hf u
      have hmem := List.mem_append_left (.command a w :: post) hf
      obtain ⟨b, v, rfl⟩ := hfs f hmem
      have hab : a ≠ b := by
        rintro rfl
        simpa [hpre] using mem_streamOf.2 hf
      refine hcomm a b w v hab List.mem_cons_self ?_ u
      rw [← mem_streamOf, ← hst b]
      exact mem_streamOf.2 hmem
    rw [performEvents_move_front post hmove, performEvents_cons, performEvents_cons]
    refine ih (fun f hf => hes f (List.mem_cons_of_mem _ hf)) (fun f hf => hfs f ?_) (streamOf_remove hpre hst)
      (fun b c v x hbc hv hx => hcomm b c v x hbc (List.mem_cons_of_mem _ hv) (List.mem_cons_of_mem _ hx)) _
    simp only [List.mem_append, List.mem_cons] at hf ⊢
    tauto

end Sys2Proof.Machine
end

section
/-! PROOFS. The statements of 10_state.md about the invariant (R47). -/

namespace Sys2Proof.Machine

/-- Settles O57: the reset state is the initial state of one configuration. -/
theorem resetMeetsTheInvariant : Obligations.ResetMeetsTheInvariant := initial_inv Config.thisHardware

/-- Settles O58: a step waits, or performs an event on the state in which it is consumed, and every event keeps the
invariant. -/
theorem stepKeepsTheInvariant : Obligations.StepKeepsTheInvariant := by
  intro s t hs h
  obtain ⟨-, rfl⟩ | ⟨e, rest, -, rfl⟩ := step_cases h
  · exact hs
  · have hrest : (s.withPort rest).Inv := inv_of_cycleRegistersKept hs rfl (by constructor <;> rfl) hs.setpoint
    exact eventEffect_inv e hrest

end Sys2Proof.Machine
end

section
/-! PROOFS. The statements of 10_state.md about what changes a register, and when (R30, R33, R34, R44, R46). -/

namespace Sys2Proof.Machine

/-- Settles O13, by induction on the number of steps: each takes one event from the port, or finds none. -/
theorem positionAdvancesByOne : Obligations.PositionAdvancesByOne := by
  intro n
  induction n with
  | zero => exact fun s => ⟨s, rfl, rfl⟩
  | succ n ih =>
    intro s
    cases hp : s.port with
    | nil =>
      rw [run_succ n (step_of_port_nil hp)]
      simpa [hp] using ih s
    | cons e rest =>
      rw [run_succ n (step_of_port_cons hp)]
      simpa [eventEffect_port] using ih (eventEffect e (s.withPort rest))

/-- Settles O21: a step that changes PULSE_COUNT performs an event that does. -/
theorem onlyEdgesAndCyclesChangePulseCount : Obligations.OnlyEdgesAndCyclesChangePulseCount := by
  intro s t h hne
  obtain ⟨-, rfl⟩ | ⟨e, rest, hp, rfl⟩ := step_cases h
  · exact absurd rfl hne
  · obtain ⟨⟨a, rfl⟩, hl⟩ | ⟨⟨a, rfl⟩, hb⟩ | rfl := cause_of_eventEffect_pulseCount_ne hne
    · exact .inl ⟨⟨a, rest, hp⟩, hl⟩
    · exact .inr (.inl ⟨⟨a, rest, hp⟩, hb⟩)
    · exact .inr (.inr ⟨rest, hp⟩)

/-- Settles O49: a step that clears a sticky bit performs an event, and no event but reset clears one. -/
theorem onlyResetClearsStickyBits : Obligations.OnlyResetClearsStickyBits := by
  intro s t h hclear
  obtain ⟨-, rfl⟩ | ⟨e, rest, hp, rfl⟩ := step_cases h
  · simp at hclear
  · by_contra hr
    have he : e ≠ .reset := by rintro rfl; exact hr ⟨rest, hp⟩
    obtain ⟨hint, hill, hmag⟩ := eventEffect_sticky he (s.withPort rest)
    obtain ⟨h1, h0⟩ | ⟨h1, h0⟩ | ⟨h1, h0⟩ := hclear
    · simp [hint h1] at h0
    · simp [hill h1] at h0
    · simp [hmag h1] at h0

/-- Settles O50, register by register, from what each command can write. -/
theorem onlyTheNamedCommandsWriteARegister : Obligations.OnlyTheNamedCommandsWriteARegister := by
  intro i s
  refine ⟨effect i s, exec_eq_effect i s, inc_or_dec_of_effect_setpoint_ne, fun h => ?_,
    tick_or_eval_of_effect_tickCount_ne, sample_of_effect_lastLevel_ne, fun h => ?_,
    effect_faultIllegal i s, effect_config i s, effect_port i s⟩
  · exact (edge_or_cycle_of_effect_pulseCount_ne h).imp And.left And.left
  · obtain hk | ⟨hi, -⟩ := effect_cycleRegisters i s
    · simp [hk.rpm, hk.integral, hk.prevError, hk.output, hk.pwmMag, hk.dir, hk.outSat, hk.intSat,
        hk.faultMag] at h
    · exact hi

/-- Settles O52: the fields of the initial state, read off. -/
theorem resetValuesOfTheRegisters : Obligations.ResetValuesOfTheRegisters :=
  ⟨rfl, rfl, rfl, rfl, rfl, rfl, rfl, rfl, rfl, rfl, rfl, rfl, rfl, rfl⟩

end Sys2Proof.Machine
end

section
/-! PROOFS. The statement of 10_state.md about what a command reads (R37, R45). -/

namespace Sys2Proof.Machine

/-- Settles O51: the response, and every value of a cycle, is computed from what the two states agree on. -/
theorem commandsDoNotReadOutputsOrFlags : Obligations.CommandsDoNotReadOutputsOrFlags := by
  intro i s s' hcfg hsp hpc htc hll hint hpe
  have h : InputsAgree s s' := ⟨hcfg, hsp, hpc, htc, hll, hint, hpe⟩
  obtain ⟨-, tsp, tpc, ttc, tll, tint, tpe⟩ := effect_inputsAgree h i
  refine ⟨effect i s, effect i s', exec_eq_effect i s, exec_eq_effect i s', tsp, tpc, ttc, tll, tint, tpe,
    effect_answer_congr h i, fun hcyc => ?_⟩
  rw [effect_answer, Answer.cyc.injEq, decide_eq_true_eq] at hcyc
  obtain ⟨rfl, hb⟩ := hcyc
  simp [effect, hb, boundary_congr h, cycleRpm_congr h, cycleOutput_congr h, cycleRaw_congr h,
    cycleActuation_dir_congr h]

end Sys2Proof.Machine
end

section
/-! PROOFS. The statements of 10_state.md about the order of the agents' commands (R48, R68). -/

namespace Sys2Proof.Machine

/-- Settles O16: both orders complete, and independent commands commute. -/
theorem independentCommandsCommute : Obligations.IndependentCommandsCommute := by
  intro i j s hi hj hp hid hdi
  refine ⟨effect i s, effect j s, effect j (effect i s), exec_eq_effect i s, exec_eq_effect j _,
    exec_eq_effect j s, ?_⟩
  rw [exec_eq_effect, effect_comm ⟨hi, hj, hp, hid, hdi⟩]

/-- Settles O15: each word is a command of its agent other than EVAL, and INC and DEC do not both occur; so words of
different agents commute, and the streams fix the outcome. -/
theorem interleavingsOfIndependentAgentsAgree : Obligations.InterleavingsOfIndependentAgentsAgree := by
  intro es fs s hes hfs hst hpoll htick htrig
  have hcmd : ∀ a w, .command a w ∈ es → ∃ i, w = encode i ∧ presenter i = a ∧ i ≠ .eval := by
    intro a w h
    have hw := mem_streamOf.2 h
    cases a with
    | poller =>
      obtain rfl | rfl := hpoll w hw
      · exact ⟨.sample0, rfl, rfl, by decide⟩
      · exact ⟨.sample1, rfl, rfl, by decide⟩
    | tickSource => exact ⟨.tick, htick w hw, rfl, by decide⟩
    | upTrigger =>
      obtain ⟨hup, -⟩ | ⟨hup, -⟩ := htrig
      · exact ⟨.inc, hup w hw, rfl, by decide⟩
      · simp [hup] at hw
    | downTrigger =>
      obtain ⟨-, hdown⟩ | ⟨-, hdown⟩ := htrig
      · simp [hdown] at hw
      · exact ⟨.dec, hdown w hw, rfl, by decide⟩
  have hone : ∀ v w, .command .upTrigger v ∈ es → .command .downTrigger w ∈ es → False := by
    intro v w hv hw
    rw [← mem_streamOf] at hv hw
    obtain ⟨-, hdown⟩ | ⟨hup, -⟩ := htrig
    · simp [hdown] at hw
    · simp [hup] at hv
  refine performEvents_eq_of_streams hes hfs hst (fun a b v w hab hv hw u => ?_) s
  obtain ⟨i, rfl, rfl, hi⟩ := hcmd a v hv
  obtain ⟨j, rfl, rfl, hj⟩ := hcmd b w hw
  have hind : Independent i j := by
    refine ⟨hi, hj, hab, ?_, ?_⟩
    · rintro ⟨rfl, rfl⟩; exact hone _ _ hv hw
    · rintro ⟨rfl, rfl⟩; exact hone _ _ hw hv
  simpa using effect_comm hind u

end Sys2Proof.Machine
end

section
/-! SUPPORT. What the read port shows (R61, R63), and the words that are no command's. -/

namespace Sys2Proof.Machine

/-- The word of a signed register has the register's value (R11, R61). -/
@[simp] theorem sext32_toInt {N : Nat} (h : N ≤ 32) (r : BitVec N) : (sext32 r).toInt = r.toInt :=
  BitVec.toInt_signExtend_of_le h

/-- The word of an unsigned register has the register's value (R11, R61). -/
@[simp] theorem zext32_toNat {N : Nat} (h : N ≤ 32) (r : BitVec N) : (zext32 r).toNat = r.toNat :=
  BitVec.toNat_setWidth_of_le h

/-- STATUS as a number (R42): six bits, so nothing is cut off. -/
theorem statusWord_toNat (s : State) :
    (statusWord s).toNat = 32 * s.faultMag.toNat + 16 * s.faultIllegal.toNat + 8 * s.intSat.toNat +
      4 * s.outSat.toNat + 2 * (boundary s).toNat + s.lastLevel.toNat := by
  have hmag := s.faultMag.toNat_le
  have hill := s.faultIllegal.toNat_le
  have hint := s.intSat.toNat_le
  have hout := s.outSat.toNat_le
  have hbd := (boundary s).toNat_le
  have hlev := s.lastLevel.toNat_le
  rw [statusWord_eq, BitVec.toNat_ofNat, Nat.mod_eq_of_lt (by omega)]

/-- R62: a reserved index reads 0. -/
theorem regRead_of_reserved {idx : BitVec 4} (h : 9 ≤ idx.toNat) (s : State) : regRead idx s = 0 := by
  unfold regRead
  split
  case h_10 => rfl
  all_goals omega

/-- R63: a read at any index does not change what the read port shows at any other. -/
@[simp] theorem regRead_performRead (idx idx' : BitVec 4) (s : State) :
    regRead idx (performRead idx' s) = regRead idx s := rfl

/-- R61, R63: a read answers the word of its index and leaves the registers as they were. -/
theorem eventEffect_read (idx : BitVec 4) (s : State) :
    eventEffect (.read idx) s = { s with answer := .word (regRead idx s) } := rfl

/-- A word that does not decode is no command's word. -/
theorem ne_encode_of_decode_error {w : Byte} {r : IllegalWord} (h : decode w = .error r) (i : Instr) :
    w ≠ encode i := by
  rintro rfl
  simp at h

end Sys2Proof.Machine
end

section
/-! SUPPORT. PULSE_COUNT and TICK_COUNT as counters (R70): what comes adds up in them, modulo 2^16, until a cycle takes it. -/

namespace Sys2Proof.Machine

/-- What `f` reads at the first event, if it performs a cycle, and what it reads later. -/
theorem cycleTotal_cons (f : State → Nat) (e : Event) (es : List Event) (s : State) :
    cycleTotal f (e :: es) s =
      (if (eventEffect e s).answer = .cyc true then f (s.withPort (e :: es ++ s.port)) else 0) +
        cycleTotal f es (eventEffect e s) := by
  unfold cycleTotal
  rw [List.length_cons, List.range_succ_eq_map, List.map_cons, List.map_map, List.sum_cons]
  simp only [Function.comp_def, Nat.succ_eq_add_one, stateAfter_succ, stateAfter_zero, withPort_answer]

/-- In the register `count` an event adds up what comes with it, `came`, modulo 2^16; a performed cycle finds nothing to
add and leaves 0. -/
structure Counts (count : State → Nat) (came : State → List Event → Nat) : Prop where
  count_withPort : ∀ s p, count (s.withPort p) = count s
  came_nil : ∀ s, came s [] = 0
  came_cons : ∀ e es s, e ≠ .reset → came s (e :: es) = came s [e] + came (eventEffect e s) es
  event : ∀ e s, e ≠ .reset →
    ((eventEffect e s).answer = .cyc true ∧ count (eventEffect e s) = 0 ∧ came s [e] = 0) ∨
    ((eventEffect e s).answer ≠ .cyc true ∧ count (eventEffect e s) = (count s + came s [e]) % 65536)

/-- R70: what the cycles take from a counter, and what it still holds, is what it held and what came. -/
theorem Counts.cycleTotal_add {count : State → Nat} {came : State → List Event → Nat} (h : Counts count came)
    {es : List Event} {s : State} (hr : .reset ∉ es) (hw : count s + came s es < 65536) :
    cycleTotal count es s + count (stateAfter es.length es s) = count s + came s es := by
  induction es generalizing s with
  | nil => simp [cycleTotal, stateAfter_zero, h.came_nil]
  | cons e es ih =>
    obtain ⟨he, hes⟩ : e ≠ .reset ∧ .reset ∉ es := by simpa [eq_comm] using hr
    rw [h.came_cons e es s he] at hw ⊢
    rw [cycleTotal_cons, List.length_cons, stateAfter_succ, h.count_withPort]
    obtain ⟨ha, hc, hg⟩ | ⟨ha, hc⟩ := h.event e s he
    · have := ih hes (s := eventEffect e s) (by omega)
      rw [if_pos ha]
      omega
    · rw [Nat.mod_eq_of_lt (by omega)] at hc
      have := ih hes (s := eventEffect e s) (by omega)
      rw [if_neg ha]
      omega

/-- R101: over two sequences of levels, one after the other, the first level of the second is paired with the last of the
first. -/
theorem risingPairs_append (last : Bool) (ls ms : List Bool) :
    risingPairs last (ls ++ ms) = risingPairs last ls + risingPairs (ls.getLastD last) ms := by
  induction ls generalizing last with
  | nil => simp [risingPairs]
  | cons l ls ih => rw [List.cons_append, risingPairs, risingPairs, ih, List.getLastD_cons, Nat.add_assoc]

theorem levelsOf_append (es fs : List Event) : levelsOf (es ++ fs) = levelsOf es ++ levelsOf fs :=
  List.filterMap_append

theorem ticksIn_append (es fs : List Event) : ticksIn (es ++ fs) = ticksIn es + ticksIn fs := List.countP_append

/-- SAMPLE counts the pair of the last level and its own (R100). -/
theorem sampleLevel_pulseCount_toNat (l : Bool) (s : State) :
    (sampleLevel l s).pulseCount.toNat = (s.pulseCount.toNat + risingPairs s.lastLevel [l]) % 65536 := by
  have hkept : s.pulseCount.toNat % 65536 = s.pulseCount.toNat := BitVec.toNat_mod_cancel _
  rw [sampleLevel_pulseCount]
  cases hl : s.lastLevel <;> cases l <;> simp [risingEdge, risingPairs, toNat_increment, hkept]

/-- An event that no counter counts, performed in `s`: it gives no level, is no TICK, and is no EVAL. -/
structure Uncounted (e : Event) (s : State) : Prop where
  levels : levelsOf [e] = []
  ticks : ticksIn [e] = 0
  lastLevel : (eventEffect e s).lastLevel = s.lastLevel
  pulseCount : (eventEffect e s).pulseCount = s.pulseCount
  tickCount : (eventEffect e s).tickCount = s.tickCount
  answer : (eventEffect e s).answer ≠ .cyc true

/-- An event other than reset presents a command's word, or it is an illegal word or a read, which no counter counts. -/
theorem command_or_uncounted {e : Event} (he : e ≠ .reset) (s : State) :
    (∃ a i, e = .command a (encode i)) ∨ Uncounted e s := by
  cases e with
  | command a w =>
    cases hd : decode w with
    | ok i => exact .inl ⟨a, i, by rw [← eq_encode_of_decode hd]⟩
    | error r =>
      have h0 : w ≠ 0x01#8 := ne_encode_of_decode_error hd .sample0
      have h1 : w ≠ 0x09#8 := ne_encode_of_decode_error hd .sample1
      have ht : w ≠ 0x02#8 := ne_encode_of_decode_error hd .tick
      have hrej : eventEffect (.command a w) s = rejectWord s := by rw [eventEffect, hd]
      right
      constructor <;> simp [hrej, levelsOf, ticksIn, h0, h1, ht]
  | reset => exact absurd rfl he
  | read idx => right; constructor <;> simp [eventEffect, levelsOf, ticksIn]

/-- LAST_LEVEL is the last level that an event gave (R36, R100). -/
theorem eventEffect_lastLevel {e : Event} (he : e ≠ .reset) (s : State) :
    (eventEffect e s).lastLevel = (levelsOf [e]).getLastD s.lastLevel := by
  obtain ⟨a, i, rfl⟩ | hu := command_or_uncounted he s
  · rw [eventEffect_command_encode]
    cases i with
    | eval =>
      have hkept : (effect .eval s).lastLevel = s.lastLevel := by
        obtain ⟨-, h⟩ | ⟨-, h⟩ := effect_eval_cases s <;> simp [h]
      exact hkept
    | _ => rfl
  · rw [hu.lastLevel, hu.levels]; rfl

/-- PULSE_COUNT counts the rising edges (R70, R100, R122). -/
theorem pulseCount_counts :
    Counts (fun s => s.pulseCount.toNat) (fun s es => risingPairs s.lastLevel (levelsOf es)) where
  count_withPort _ _ := rfl
  came_nil _ := rfl
  came_cons e es s he := by
    rw [← List.singleton_append, levelsOf_append, risingPairs_append, eventEffect_lastLevel he]
  event e s he := by
    have hkept : s.pulseCount.toNat = s.pulseCount.toNat % 65536 := (BitVec.toNat_mod_cancel _).symm
    obtain ⟨a, i, rfl⟩ | hu := command_or_uncounted he s
    · rw [eventEffect_command_encode]
      cases i with
      | sample0 => exact .inr ⟨by simp [effect_answer], sampleLevel_pulseCount_toNat false s⟩
      | sample1 => exact .inr ⟨by simp [effect_answer], sampleLevel_pulseCount_toNat true s⟩
      | eval =>
        obtain ⟨-, h⟩ | ⟨-, h⟩ := effect_eval_cases s <;> rw [h]
        · exact .inl ⟨performCycle_answer s, by rw [performCycle_pulseCount]; rfl, rfl⟩
        · exact .inr ⟨by simp, hkept⟩
      | tick | inc | dec => exact .inr ⟨by simp [effect_answer], hkept⟩
    · rw [hu.pulseCount, hu.levels]
      exact .inr ⟨hu.answer, hkept⟩

/-- TICK_COUNT counts the TICKs (R70, R120, R122). -/
theorem tickCount_counts : Counts (fun s => s.tickCount.toNat) (fun _ es => ticksIn es) where
  count_withPort _ _ := rfl
  came_nil _ := rfl
  came_cons e es _ _ := ticksIn_append [e] es
  event e s he := by
    have hkept : s.tickCount.toNat = s.tickCount.toNat % 65536 := (BitVec.toNat_mod_cancel _).symm
    obtain ⟨a, i, rfl⟩ | hu := command_or_uncounted he s
    · rw [eventEffect_command_encode]
      cases i with
      | tick => exact .inr ⟨by simp [effect_answer], toNat_increment s.tickCount⟩
      | eval =>
        obtain ⟨-, h⟩ | ⟨-, h⟩ := effect_eval_cases s <;> rw [h]
        · exact .inl ⟨performCycle_answer s, by rw [performCycle_tickCount]; rfl, rfl⟩
        · exact .inr ⟨by simp, hkept⟩
      | sample0 | sample1 | inc | dec => exact .inr ⟨by simp [effect_answer], hkept⟩
    · rw [hu.tickCount, hu.ticks]
      exact .inr ⟨hu.answer, hkept⟩

end Sys2Proof.Machine
end

section
/-! PROOFS. The statements of 20_memory.md: the read port (R61, R63), and the command port and its order (R66 to R72). -/

namespace Sys2Proof.Machine

/-- Settles O14: performing a list is the fold of its events' effects, and no event looks at the events after it. -/
theorem eventsSeeOnlyEarlierEvents : Obligations.EventsSeeOnlyEarlierEvents := by
  constructor
  · intro es
    induction es with
    | nil => exact fun s => ⟨s, fun rest => rfl⟩
    | cons e es ih =>
      intro s
      obtain ⟨t, ht⟩ := ih (eventEffect e s)
      refine ⟨t, fun rest => ?_⟩
      rw [List.cons_append, List.length_cons, run_cons, ht rest]
  · intro es fs s t h
    rw [performEvents_eq_foldl, Host.Outcome.next.injEq] at h
    rw [performEvents_eq_foldl, performEvents_eq_foldl, List.foldl_append, h]

/-- Settles O28: both registers are counters that a performed cycle empties. -/
theorem everyEdgeAndTickIsCountedOnce : Obligations.EveryEdgeAndTickIsCountedOnce :=
  fun _ _ hr => ⟨pulseCount_counts.cycleTotal_add hr, tickCount_counts.cycleTotal_add hr⟩

/-- Settles O47, index by index. -/
theorem readPortReturnsTheRegisters : Obligations.ReadPortReturnsTheRegisters := fun s =>
  ⟨sext32_toInt (by decide) s.setpoint, zext32_toNat (by decide) s.pulseCount,
    zext32_toNat (by decide) s.tickCount, rfl, sext32_toInt le_rfl s.integral, sext32_toInt le_rfl s.prevError,
    sext32_toInt le_rfl s.output, actuatorWord_toNat s, statusWord_toNat s, fun _ h => regRead_of_reserved h s⟩

/-- Settles O8: a step performs the next event on the state in which it is consumed, and the event is the word's
command. -/
theorem stepRunsTheDecodedCommand : Obligations.StepRunsTheDecodedCommand := by
  intro s a w rest i hp hd
  rw [step_of_port_cons hp, eq_encode_of_decode hd, eventEffect_command_encode, exec_eq_effect]

/-- Settles O48: each of the two steps performs a read, and the first does not change what the second shows. -/
theorem readHasNoSideEffect : Obligations.ReadHasNoSideEffect := by
  intro s idx rest hp
  refine ⟨_, _, step_of_port_cons hp, ?_, step_of_port_cons (eventEffect_port _ _), ?_⟩
  · rw [eventEffect_read, regRead_withPort]; rfl
  · have hagain : regRead idx (eventEffect (.read idx) (s.withPort (.read idx :: rest))) = regRead idx s := by
      rw [eventEffect, regRead_performRead, regRead_withPort]
    rw [eventEffect_read, regRead_withPort, hagain]; rfl

end Sys2Proof.Machine
end

section
/-! SUPPORT. The legal words (R83), and streams of words (R86, R89): a word is legal exactly when it is the word of a command. -/

namespace Sys2Proof

theorem decode_eq_ok_iff {w : Byte} {i : Instr} : decode w = .ok i ↔ w = encode i :=
  ⟨eq_encode_of_decode, fun h => h ▸ decode_encode i⟩

theorem encode_injective : Function.Injective encode := fun i j h =>
  Except.ok.inj ((decode_encode i).symm.trans (h ▸ decode_encode j))

/-- The list of R83, as numbers. -/
theorem legalWord_iff_toNat (w : Byte) :
    legalWord w = true ↔ w.toNat = 1 ∨ w.toNat = 9 ∨ w.toNat = 2 ∨ w.toNat = 3 ∨ w.toNat = 4 ∨ w.toNat = 5 := by
  simp [legalWord, ← BitVec.toNat_inj, or_assoc]

/-- R83: the decoder accepts the six listed words and no others. -/
theorem exists_decode_ok_iff (w : Byte) : (∃ i, decode w = .ok i) ↔ legalWord w = true := by
  simp only [decode_eq_ok_iff]
  constructor
  · rintro ⟨i, rfl⟩
    cases i <;> rfl
  · intro h
    simp only [legalWord, Bool.or_eq_true, beq_iff_eq, or_assoc] at h
    obtain h | h | h | h | h | h := h
    exacts [⟨.sample0, h⟩, ⟨.sample1, h⟩, ⟨.tick, h⟩, ⟨.eval, h⟩, ⟨.inc, h⟩, ⟨.dec, h⟩]

/-- R89: decoding is total, so every other word is answered with a reason. -/
theorem exists_decode_error_iff (w : Byte) : (∃ r, decode w = .error r) ↔ legalWord w = false := by
  rw [← Bool.not_eq_true, ← exists_decode_ok_iff]
  cases decode w <;> simp

/-- The three cases of R83, as numbers: nonzero Z, a reserved OP, or L = 1 with an OP other than SAMPLE. -/
theorem legalWord_eq_false_iff_toNat (w : Byte) :
    legalWord w = false ↔
      w.toNat / 16 ≠ 0 ∨ (w.toNat % 8 = 0 ∨ w.toNat % 8 = 6 ∨ w.toNat % 8 = 7) ∨
        (w.toNat / 8 % 2 = 1 ∧ w.toNat % 8 ≠ 1) := by
  rw [← Bool.not_eq_true, legalWord_iff_toNat]
  omega

/-- R83: ten of the sixteen words with Z = 0b0000 are illegal, and so is every word above them. -/
theorem length_illegalWords :
    ((List.range 256).filter (fun n => !legalWord (BitVec.ofNat 8 n))).length = 250 := by
  have habove : ∀ n ∈ (List.range 240).map (16 + ·), (!legalWord (BitVec.ofNat 8 n)) = true := by
    intro n hn
    obtain ⟨k, hk, rfl⟩ := List.mem_map.1 hn
    have hlt := List.mem_range.1 hk
    rw [Bool.not_eq_true', legalWord_eq_false_iff_toNat, BitVec.toNat_ofNat, Nat.mod_eq_of_lt (by omega)]
    omega
  rw [List.range_add (n := 16) (m := 240), List.filter_append, List.filter_eq_self.2 habove, List.length_append,
    List.length_map, List.length_range]
  decide

/-- A word with the number of a command's word decodes to that command. -/
theorem decode_of_toNat_eq {w : Byte} (i : Instr) (h : w.toNat = (encode i).toNat) : decode w = .ok i :=
  decode_eq_ok_iff.2 (BitVec.eq_of_toNat_eq h)

/-- A stream decodes when its first word and the rest of it do. -/
theorem decodeStream_cons_eq_some_iff (w : Byte) (ws : List Byte) (is : List Instr) :
    decodeStream (w :: ws) = some is ↔
      ∃ i js, decode w = .ok i ∧ decodeStream ws = some js ∧ i :: js = is := by
  rw [decodeStream]
  cases decode w <;> cases decodeStream ws <;> simp

end Sys2Proof
end

section
/-! SUPPORT. Lines of source within a longer text (R87): a text that assembles by itself gives the same words wherever it
stands. -/

namespace Sys2Proof.Machine

/-- R88: a line that is no `.rep` and no `.endr`, assembled by itself. -/
theorem assemble_singleton (c : Config) {l : AsmLine} (hrep : ∀ n, l ≠ .rep n) (hend : l ≠ .endr) :
    assemble c [l] = some (lineWords c l) := by
  rw [assemble, assembleFrom_line c [] [] l [] hrep hend]
  rfl

/-- What a text finds open within a longer one: `Within outer pre blocks acc blocks' acc'` when the blocks `blocks` and the
words `acc` of a text assembled by itself are `blocks'` and `acc'` where the blocks `outer` are open around the text and the
words `pre` precede it.  The words `pre` stand in front of the text's outermost words. -/
inductive Within (outer : List (Nat × List Byte)) (pre : List Byte) :
    List (Nat × List Byte) → List Byte → List (Nat × List Byte) → List Byte → Prop where
  | outermost (acc : List Byte) : Within outer pre [] acc outer (pre ++ acc)
  | block {blocks blocks' : List (Nat × List Byte)} {before before' : List Byte} (n : Nat) (acc : List Byte)
      (h : Within outer pre blocks before blocks' before') :
      Within outer pre ((n, before) :: blocks) acc ((n, before') :: blocks') acc

section
variable {outer blocks blocks' : List (Nat × List Byte)} {pre acc acc' : List Byte}

/-- The words of a line are added at the end of the innermost block, inside and by itself alike. -/
theorem Within.append (h : Within outer pre blocks acc blocks' acc') (ws : List Byte) :
    Within outer pre blocks (acc ++ ws) blocks' (acc' ++ ws) := by
  cases h with
  | outermost =>
    rw [List.append_assoc]
    exact .outermost _
  | block n _ h => exact .block n _ h

/-- R87: a text that assembles by itself has, within a longer one, the effect of its words. -/
theorem Within.assembleFrom_append (h : Within outer pre blocks acc blocks' acc') {c : Config}
    {ls : List AsmLine} {ws : List Byte} (hls : assembleFrom c blocks acc ls = some ws) (ks : List AsmLine) :
    assembleFrom c blocks' acc' (ls ++ ks) = assembleFrom c outer (pre ++ ws) ks := by
  induction ls generalizing blocks acc blocks' acc' with
  | nil =>
    cases h with
    | outermost =>
      cases hls
      rfl
    | block => cases hls
  | cons l ls ih =>
    rw [List.cons_append]
    cases l with
    | rep n =>
      rw [assembleFrom_rep] at hls ⊢
      exact ih (.block n [] h) hls
    | endr =>
      cases h with
      | outermost => cases hls
      | block n _ h =>
        rw [assembleFrom_endr] at hls ⊢
        exact ih (h.append _) hls
    | _ =>
      rw [assembleFrom_line _ _ _ _ _ (by simp) (by simp)] at hls ⊢
      exact ih (h.append _) hls

end

/-- A text that assembles to `ws` adds `ws` to the words before it, whatever blocks are open around it. -/
theorem assembleFrom_append_of_assemble {c : Config} {ls : List AsmLine} {ws : List Byte}
    (h : assemble c ls = some ws) (outer : List (Nat × List Byte)) (pre : List Byte) (ks : List AsmLine) :
    assembleFrom c outer pre (ls ++ ks) = assembleFrom c outer (pre ++ ws) ks := by
  have hstart : Within outer pre [] [] outer pre := by simpa using Within.outermost (outer := outer) (pre := pre) []
  exact hstart.assembleFrom_append h ks

end Sys2Proof.Machine
end

section
/-! SUPPORT. What the block answers to a presented word, legal or illegal (R84, R222). -/

namespace Sys2Proof.Machine

/-- R84: cyc is 1 only for the word of EVAL where the detector is asserted; an illegal word is not that word. -/
theorem eventEffect_command_answer (a : Agent) (w : Byte) (s : State) :
    (eventEffect (.command a w) s).answer =
      .cyc (decide (w = 0x03#8 ∧ s.config.tickThreshold ≤ s.tickCount.toNat)) := by
  cases hd : decode w with
  | ok i =>
    have heval : encode i = 0x03#8 ↔ i = .eval := encode_injective.eq_iff (b := .eval)
    simp only [eq_encode_of_decode hd, eventEffect_command_encode, effect_answer, boundary_iff, heval]
  | error r =>
    have hne : w ≠ 0x03#8 := ne_encode_of_decode_error hd .eval
    simp [eventEffect, hd, hne]

/-- R222: an illegal word raises FAULT_ILLEGAL, responds cyc = 0 and is consumed. -/
theorem step_of_decode_error {s : State} {a : Agent} {w : Byte} {rest : List Event} {r : IllegalWord}
    (hp : s.port = .command a w :: rest) (hd : decode w = .error r) :
    step s = .next { s with port := rest, faultIllegal := true, answer := .cyc false } := by
  rw [step_of_port_cons hp, eventEffect, hd]
  rfl

end Sys2Proof.Machine
end

section
/-! PROOFS. The statements of 30_encoding.md: the opcode map and its decoder (R80 to R84, R89), streams (R86), and the
assembler (R87, R88). -/

namespace Sys2Proof.Machine

/-- Settles O5, by induction on the words: the first word is decoded by itself, and it is its command's word. -/
theorem streamsDecodeToTheirCommands : Obligations.StreamsDecodeToTheirCommands := by
  intro ws
  induction ws with
  | nil => intro is; simp [decodeStream, eq_comm]
  | cons w ws ih =>
    intro is
    simp only [decodeStream_cons_eq_some_iff, decode_eq_ok_iff, ih]
    cases is <;> simp

/-- Settles O7: the lines add their words to those before them, in the text and inside the block. -/
theorem assemblerRepeatsBlocks : Obligations.AssemblerRepeatsBlocks := by
  intro c ls ks ws us n hls hks
  constructor
  · calc assembleFrom c [] [] (ls ++ ks)
      _ = assembleFrom c [] ws ks := assembleFrom_append_of_assemble hls [] [] ks
      _ = assembleFrom c [] (ws ++ us) [] := by
        rw [← assembleFrom_append_of_assemble hks [] ws [], List.append_nil]
  · calc assembleFrom c [] [] (.rep n :: (ls ++ [.endr]))
      _ = assembleFrom c [(n, [])] [] (ls ++ [.endr]) := assembleFrom_rep c [] [] n _
      _ = assembleFrom c [(n, [])] ws [.endr] := assembleFrom_append_of_assemble hls [(n, [])] [] [.endr]
      _ = some (repeatWords n ws) := rfl

/-- Settles O17: a step performs the next event, and its response is that of the presented word. -/
theorem cycOnlyForAPerformedCycle : Obligations.CycOnlyForAPerformedCycle := fun s a w rest hp =>
  ⟨_, step_of_port_cons hp, eventEffect_command_answer a w (s.withPort rest)⟩

/-- Settles O1: the six words are the commands' words, and the reserved ones are not on the list of R83. -/
theorem decodeFollowsTheOpcodeMap : Obligations.DecodeFollowsTheOpcodeMap := by
  refine ⟨decode_encode .sample0, decode_encode .sample1, decode_encode .tick, decode_encode .eval,
    decode_encode .inc, decode_encode .dec, fun w hw i hi => ?_⟩
  have hreserved : ∀ w ∈ [0x00#8, 0x08#8, 0x06#8, 0x0E#8, 0x07#8, 0x0F#8], legalWord w = false := by decide
  have hlegal := (exists_decode_ok_iff w).1 ⟨i, hi⟩
  rw [hreserved w hw] at hlegal
  cases hlegal

/-- Settles O2: legal and illegal words by the list of R83, and an illegal word as R222 has it. -/
theorem onlySixWordsAreLegal : Obligations.OnlySixWordsAreLegal := by
  refine ⟨fun w => ?_, length_illegalWords, fun w => ?_, fun s a w rest hp hw => ?_⟩
  · rw [exists_decode_ok_iff]
    simp [legalWord, or_assoc]
  · rw [exists_decode_error_iff, legalWord_eq_false_iff_toNat]
  · obtain ⟨r, hr⟩ := (exists_decode_error_iff w).2 hw
    exact step_of_decode_error hp hr

/-- Settles O3: the fields determine the word, a legal word decodes to its command, and the others fall under the three
cases of R83. -/
theorem decodeFollowsThePseudocode : Obligations.DecodeFollowsThePseudocode := by
  intro w
  simp only [exists_decode_error_iff, legalWord_eq_false_iff_toNat]
  refine ⟨fun hz => .inl hz, fun hz hop => ?_, fun _ hop hl => .inr (.inr ⟨hl, hop⟩), decode_of_toNat_eq .tick,
    decode_of_toNat_eq .eval, decode_of_toNat_eq .inc, decode_of_toNat_eq .dec, by omega⟩
  split_ifs with hl
  · have h9 : w.toNat = 9 := by omega
    exact decode_of_toNat_eq .sample1 h9
  · have h1 : w.toNat = 1 := by omega
    exact decode_of_toNat_eq .sample0 h1

/-- Settles O4: a command's word decodes to it, and the decoder's branches fix the fields of every word they accept. -/
theorem decodeInvertsEncode : Obligations.DecodeInvertsEncode := fun _ _ => decode_eq_ok_iff

/-- Settles O6: each pseudo-instruction, assembled by itself, is the words of its line. -/
theorem pseudoInstructionsExpand : Obligations.PseudoInstructionsExpand := by
  intro c l
  refine ⟨?_, assemble_singleton c (l := .pulse) (by simp) (by simp),
    assemble_singleton c (l := .second) (by simp) (by simp), assemble_singleton c (l := .cycle) (by simp) (by simp)⟩
  rw [assemble_singleton c (by simp) (by simp)]
  cases l <;> rfl

end Sys2Proof.Machine
end

section
/-! SUPPORT. Counters over events without a cycle or a reset (R101, R125), and the rising pairs of clean pulses (R102). -/

namespace Sys2Proof.Machine

/-- R101, R125: with no cycle to empty it, a counter grows by what comes, modulo 2^16. -/
theorem Counts.performEvents_modEq {count : State → Nat} {came : State → List Event → Nat} (h : Counts count came)
    {es : List Event} {s t : State} (hr : .reset ∉ es) (hn : NoCycle es s) (ht : performEvents es s = .next t) :
    count t ≡ count s + came s es [MOD 65536] := by
  induction es generalizing s with
  | nil =>
    obtain rfl : s = t := Host.Outcome.next.inj ht
    rw [h.came_nil, Nat.add_zero]
  | cons e es ih =>
    obtain ⟨he, hes⟩ : e ≠ .reset ∧ .reset ∉ es := by simpa [eq_comm] using hr
    obtain ⟨ha, hn⟩ := (noCycle_cons e es s).1 hn
    have hlater := ih hes hn (performEvents_cons e es s ▸ ht)
    obtain ⟨hcyc, -, -⟩ | ⟨-, hc⟩ := h.event e s he
    · exact absurd hcyc ha
    · rw [h.came_cons e es s he, ← Nat.add_assoc]
      exact hlater.trans (.add_right _ (hc ▸ Nat.mod_modEq _ _))

/-- The last level of two sequences is that of the second, or of the first where the second is empty. -/
theorem getLastD_append (last : Bool) (ls ms : List Bool) :
    (ls ++ ms).getLastD last = ms.getLastD (ls.getLastD last) := by
  simp only [List.getLastD_eq_getLast?, List.getLast?_append, Option.getD_or]

/-- R36: LAST_LEVEL is the last level that the events gave. -/
theorem performEvents_lastLevel {es : List Event} {s t : State} (hr : .reset ∉ es)
    (ht : performEvents es s = .next t) : t.lastLevel = (levelsOf es).getLastD s.lastLevel := by
  induction es generalizing s with
  | nil => obtain rfl : s = t := Host.Outcome.next.inj ht; rfl
  | cons e es ih =>
    obtain ⟨he, hes⟩ : e ≠ .reset ∧ .reset ∉ es := by simpa [eq_comm] using hr
    rw [ih hes (performEvents_cons e es s ▸ ht), eventEffect_lastLevel he, ← getLastD_append,
      ← levelsOf_append, List.singleton_append]

/-- A level held has no rising pair. -/
theorem risingPairs_replicate_self (l : Bool) (n : Nat) : risingPairs l (List.replicate n l) = 0 := by
  induction n with
  | zero => rfl
  | succ n ih => rw [List.replicate_succ, risingPairs, ih]; cases l <;> rfl

theorem getLastD_replicate_succ (last l : Bool) (n : Nat) : (List.replicate (n + 1) l).getLastD last = l := by
  simp [List.getLastD_eq_getLast?, List.getLast?_replicate]

/-- The levels of one clean pulse: high `p.1 + 1` times, then low `p.2 + 1` times (R102). -/
def pulseLevels (p : Nat × Nat) : List Bool := List.replicate (p.1 + 1) true ++ List.replicate (p.2 + 1) false

/-- A clean pulse ends low, whatever the level before it. -/
theorem pulseLevels_getLastD (p : Nat × Nat) (last : Bool) : (pulseLevels p).getLastD last = false := by
  rw [pulseLevels, getLastD_append, getLastD_replicate_succ]

/-- From a low level, a clean pulse rises once: at its first high sample. -/
theorem risingPairs_pulseLevels (p : Nat × Nat) : risingPairs false (pulseLevels p) = 1 := by
  have hhigh : risingPairs false (List.replicate (p.1 + 1) true) = 1 := by
    rw [List.replicate_succ, risingPairs, risingPairs_replicate_self]; rfl
  have hlow : risingPairs true (List.replicate (p.2 + 1) false) = 0 := by
    rw [List.replicate_succ, risingPairs, risingPairs_replicate_self]; rfl
  rw [pulseLevels, risingPairs_append, getLastD_replicate_succ, hhigh, hlow]

/-- R102: from a low level, clean pulses have one rising pair each. -/
theorem risingPairs_flatMap_pulseLevels (pulses : List (Nat × Nat)) :
    risingPairs false (pulses.flatMap pulseLevels) = pulses.length := by
  induction pulses with
  | nil => rfl
  | cons p ps ih =>
    rw [List.flatMap_cons, risingPairs_append, risingPairs_pulseLevels, pulseLevels_getLastD, ih, List.length_cons,
      Nat.add_comm]

theorem risingEdge_iff (last level : Bool) : risingEdge last level = true ↔ level = true ∧ last = false := by
  simp [risingEdge]

end Sys2Proof.Machine
end

section
/-! PROOFS. The statements of 40_edge_counter.md: SAMPLE (R100) and the edges that it counts (R101, R102). -/

namespace Sys2Proof.Machine

/-- Settles O19: PULSE_COUNT is a counter of the rising pairs, and no cycle empties it. -/
theorem pulseCountGrowsByRisingPairs : Obligations.PulseCountGrowsByRisingPairs := by
  intro es s hr hn
  have ht := performEvents_eq_foldl es s
  refine ⟨_, ht, ?_, performEvents_lastLevel hr ht⟩
  rw [← pulseCount_counts.performEvents_modEq hr hn ht, BitVec.toNat_mod_cancel]

/-- Settles O20: the levels of N clean pulses have N rising pairs, and N does not wrap. -/
theorem cleanPulsesAreAllCounted : Obligations.CleanPulsesAreAllCounted := by
  intro es s pulses hr hn hlevels hcount hlast hlt
  obtain ⟨t, ht, hgrown, -⟩ := pulseCountGrowsByRisingPairs es s hr hn
  have hpairs : risingPairs false (levelsOf es) = pulses.length :=
    hlevels ▸ risingPairs_flatMap_pulseLevels pulses
  refine ⟨t, ht, ?_⟩
  rw [hgrown, hcount, hlast, hpairs, BitVec.ofNat_eq_ofNat, BitVec.toNat_zero, Nat.zero_add, Nat.mod_eq_of_lt hlt]

/-- Settles O18: both commands are `sampleLevel`, which counts exactly on a rising edge. -/
theorem sampleCountsARisingEdge : Obligations.SampleCountsARisingEdge := by
  refine ⟨decode_encode .sample0, decode_encode .sample1, fun s l => ⟨sampleLevel l s, ?_, ?_, rfl, rfl, rfl⟩⟩
  · cases l <;> rfl
  · simp only [sampleLevel_pulseCount, risingEdge_iff]
    split_ifs
    · exact toNat_increment s.pulseCount
    · rfl

end Sys2Proof.Machine
end

section
/-! SUPPORT. The detector (R121), and what no EVAL below the threshold and no event changes (R49, R123). -/

namespace Sys2Proof.Machine

/-- R42, R61: STATUS shows the detector in bit 1. -/
theorem statusWord_getLsbD_one (s : State) : (statusWord s).getLsbD 1 = boundary s := by
  rw [statusWord, BitVec.getLsbD_append, BitVec.getLsbD_append]
  simp

/-- R6, R121: no configuration has threshold 0, so the detector is deasserted where TICK_COUNT is 0. -/
theorem lt_tickThreshold_of_tickCount_eq_zero {s : State} (h : s.tickCount = 0) :
    s.tickCount.toNat < s.config.tickThreshold := by
  rw [h]
  exact s.config.tickThreshold_range.1

/-- R123: an EVAL that finds the detector deasserted only responds, whoever presents it (R231). -/
theorem eventEffect_eval_of_not_boundary (a : Agent) {s : State} (h : s.tickCount.toNat < s.config.tickThreshold) :
    eventEffect (.command a 0x03#8) s = respond false s := by
  have hexec := exec_eval_of_not_boundary h
  rw [exec_eq_effect, Host.Outcome.next.injEq] at hexec
  exact (eventEffect_command_encode a .eval s).trans hexec

/-- Events do not change the configuration (R49). -/
theorem performEvents_config {es : List Event} {s t : State} (ht : performEvents es s = .next t) :
    t.config = s.config := by
  induction es generalizing s with
  | nil => obtain rfl : s = t := Host.Outcome.next.inj ht; rfl
  | cons e es ih => rw [ih (performEvents_cons e es s ▸ ht), eventEffect_config]

/-- An event that leaves a state as it is may be performed any number of times. -/
theorem performEvents_replicate_of_eventEffect_eq_self {e : Event} {s : State} (h : eventEffect e s = s) (n : Nat) :
    performEvents (List.replicate n e) s = .next s := by
  induction n with
  | zero => rfl
  | succ n ih => rw [List.replicate_succ, performEvents_cons, h, ih]

end Sys2Proof.Machine
end

section
/-! SUPPORT. A measurement cycle's flags as comparisons of numbers (R161, R165), and its frame (R122). -/

namespace Sys2Proof.Machine

/-- R161: the integral saturates exactly when the exact sum leaves 32 bits. -/
theorem cycleIntegral_snd (s : State) :
    (cycleIntegral s).2 =
      decide (s.integral.toInt + cycleError s < -2147483648 ∨ 2147483647 < s.integral.toInt + cycleError s) :=
  Bool.eq_iff_iff.2 ((integralSaturates_iff _).trans decide_eq_true_iff.symm)

/-- R165: OUT_SAT tells whether the raw output is above 255 in magnitude. -/
theorem outputSaturates_eq_decide (raw : Int) : outputSaturates raw = decide (255 < raw.natAbs) :=
  Bool.eq_iff_iff.2 ((outputSaturates_iff raw).trans decide_eq_true_iff.symm)

/-- The output of a cycle (R164). -/
theorem cycleOutput_eq (s : State) :
    cycleOutput s = if s.config.saturate then max (-255) (min 255 (cycleRaw s)) else cycleRaw s :=
  saturate_eq s.config (cycleRaw s)

/-- R180: where the output fits the magnitude, PWM_MAG holds its absolute value and FAULT_MAG stays. -/
theorem performCycle_mag_of_natAbs_le {s : State} (h : (cycleOutput s).natAbs ≤ 255) :
    (performCycle s).pwmMag.toNat = (cycleOutput s).natAbs ∧ (performCycle s).faultMag = s.faultMag := by
  rw [performCycle_pwmMag, performCycle_faultMag]
  obtain ⟨-, ⟨-, ho, hm⟩ | ⟨hgt, -, -⟩⟩ := cycleActuation_cases s
  · rw [ho, Bool.or_false]
    exact ⟨hm, rfl⟩
  · omega

/-- R181, R223: an output that does not fit the magnitude raises FAULT_MAG. -/
theorem performCycle_faultMag_of_lt_natAbs {s : State} (h : 255 < (cycleOutput s).natAbs) :
    (performCycle s).faultMag = true := by
  rw [performCycle_faultMag]
  obtain ⟨-, ⟨hle, -, -⟩ | ⟨-, ho, -⟩⟩ := cycleActuation_cases s
  · omega
  · rw [ho, Bool.or_true]

/-- R122: a cycle leaves the configuration, SETPOINT, LAST_LEVEL, FAULT_ILLEGAL and the events that wait. -/
theorem performCycle_frame (s : State) :
    performCycle s = { performCycle s with
      config := s.config, setpoint := s.setpoint, lastLevel := s.lastLevel, faultIllegal := s.faultIllegal,
      port := s.port } := by
  rw [← performCycle_config s, ← performCycle_setpoint s, ← performCycle_lastLevel s,
    ← performCycle_faultIllegal s, ← performCycle_port s]

end Sys2Proof.Machine
end

section
/-! PROOFS. The statements of 41_time_base.md: TICK (R120), the detector (R121, R125) and EVAL (R122 to R124). -/

namespace Sys2Proof.Machine

/-- Settles O23: EVAL reads the detector, and STATUS shows it. -/
theorem detectorComparesWithTheThreshold : Obligations.DetectorComparesWithTheThreshold := by
  refine ⟨rfl, fun s => ⟨statusWord_getLsbD_one s, effect .eval s, exec_eq_effect .eval s, ?_⟩⟩
  simp only [effect_answer, boundary_iff, true_and, ge_iff_le]

/-- Settles O24: TICK_COUNT is a counter of the TICKs that no cycle empties, and what it holds is at most what came. -/
theorem cycleTakesAtLeastTheThreshold : Obligations.CycleTakesAtLeastTheThreshold := by
  intro es s hr hn
  have ht := performEvents_eq_foldl es s
  have hgrown := tickCount_counts.performEvents_modEq hr hn ht
  rw [Nat.ModEq, BitVec.toNat_mod_cancel] at hgrown
  refine ⟨_, ht, hgrown, fun h0 hb => ?_⟩
  rw [boundary_iff, performEvents_config ht, hgrown, h0] at hb
  calc s.config.tickThreshold
    _ ≤ (0 + ticksIn es) % 65536 := hb
    _ ≤ 0 + ticksIn es := Nat.mod_le _ _
    _ = ticksIn es := Nat.zero_add _

/-- Settles O25: the first EVAL only responds cyc = 0, and those after it find the state so. -/
theorem evalWithoutBoundaryChangesNothing : Obligations.EvalWithoutBoundaryChangesNothing := by
  intro s n h
  have hagain : eventEffect (.command .poller 0x03#8) (respond false s) = respond false s :=
    eventEffect_eval_of_not_boundary .poller h
  refine ⟨exec_eval_of_not_boundary h, ?_⟩
  rw [List.replicate_succ, performEvents_cons, eventEffect_eval_of_not_boundary .poller h]
  exact performEvents_replicate_of_eventEffect_eq_self hagain n

/-- Settles O26: the statement's `r`, `e`, `i`, `raw` and `v` are the values that a cycle computes, and each register
holds the value written to it. -/
theorem evalPerformsOneMeasurementCycle : Obligations.EvalPerformsOneMeasurementCycle := by
  refine ⟨decode_encode .eval, fun s => ⟨exec_eval_of_not_boundary, fun h =>
    ⟨performCycle s, exec_eval_of_boundary h, ?_⟩⟩⟩
  intro r e sum i raw v
  have hi : (cycleIntegral s).1 = i := cycleIntegral_fst s
  have hraw : cycleRaw s = raw := by rw [cycleRaw_eq, hi]; rfl
  have hv : cycleOutput s = v := by rw [cycleOutput_eq, hraw]
  refine ⟨performCycle_pulseCount s, performCycle_tickCount s, performCycle_rpm_toNat s,
    (performCycle_integral_toInt s).trans hi, performCycle_prevError_toInt s, ?_,
    (performCycle_output_toInt s).trans hv, ?_, ?_, ?_, ?_, performCycle_answer s, performCycle_frame s⟩
  · rw [performCycle_intSat, cycleIntegral_snd]; rfl
  · rw [performCycle_outSat, hraw, outputSaturates_eq_decide]
  · rw [performCycle_dir, (cycleActuation_cases s).1, hv]
  · rw [← hv]; exact performCycle_mag_of_natAbs_le
  · rw [← hv]; exact performCycle_faultMag_of_lt_natAbs

/-- Settles O22: TICK increments TICK_COUNT and responds. -/
theorem tickCountsOneTick : Obligations.TickCountsOneTick :=
  ⟨decode_encode .tick, fun s => ⟨effect .tick s, rfl, toNat_increment s.tickCount, rfl, rfl⟩⟩

/-- Settles O27: a cycle leaves TICK_COUNT = 0, which is below every threshold. -/
theorem cycleDiscardsExtraTicks : Obligations.CycleDiscardsExtraTicks := by
  intro s h
  have h0 : (performCycle s).tickCount = 0 := performCycle_tickCount s
  exact ⟨performCycle s, exec_eval_of_boundary h, h0,
    exec_eval_of_not_boundary (lt_tickThreshold_of_tickCount_eq_zero h0)⟩

end Sys2Proof.Machine
end

section
/-! SUPPORT. RpmOf as a function of its argument (R141). -/

namespace Sys2Proof.Machine

/-- R141: more pulses are no fewer RPM. -/
theorem rpmOf_le_rpmOf (c : Config) {p q : Nat} (h : p ≤ q) : rpmOf c p ≤ rpmOf c q := by
  rw [rpmOf_eq, rpmOf_eq]
  exact Nat.div_le_div_right (Nat.mul_le_mul_right 60 h)

/-- R141: one shaft revolution more in a cycle is 60 RPM more, since PPR is not 0 (R142). -/
theorem rpmOf_add_ppr (c : Config) (p : Nat) : rpmOf c (p + c.ppr) = rpmOf c p + 60 := by
  have hpos : 0 < c.ppr := c.ppr_range.1
  rw [rpmOf_eq, rpmOf_eq, Nat.add_mul, Nat.mul_comm c.ppr, Nat.add_mul_div_right _ _ hpos]

/-- R141: 20 divides 60, so nothing is truncated. -/
theorem rpmOf_of_ppr_eq_twenty {c : Config} (h : c.ppr = 20) (p : Nat) : rpmOf c p = 3 * p := by
  rw [rpmOf_eq, h]
  omega

end Sys2Proof.Machine
end

section
/-! PROOFS. The statements of 42_speed_estimator.md: RpmOf (R140, R141). -/

namespace Sys2Proof.Machine

/-- Settles O30: truncation and floor differ for negative operands alone; the other clauses are facts about one
quotient. -/
theorem rpmIsMonotoneAndSteps : Obligations.RpmIsMonotoneAndSteps := fun c p _ =>
  ⟨(Int.fdiv_eq_tdiv_of_nonneg (Int.natCast_nonneg (p * 60)) (Int.natCast_nonneg c.ppr)).symm, rpmOf_le_rpmOf c,
    rpmOf_add_ppr c p, fun h => rpmOf_of_ppr_eq_twenty h p⟩

/-- Settles O29: with PPR = 1 nothing is divided away, and a cycle's RPM fits its register. -/
theorem rpmIsPulsesTimesSixtyOverPpr : Obligations.RpmIsPulsesTimesSixtyOverPpr := by
  refine ⟨fun c p => ⟨rpmOf_eq c p, rpmOf_le c⟩, fun c h => ?_, fun s h => ?_⟩
  · rw [rpmOf_eq, h]
  · exact ⟨performCycle s, exec_eval_of_boundary h, performCycle_rpm_toNat s⟩

end Sys2Proof.Machine
end

section
/-! SUPPORT. Which event a step performs when it changes a register that a cycle writes (R163, R251). -/

namespace Sys2Proof.Machine

/-- R163, R251: an event leaves the registers that a cycle writes, unless it is an EVAL that performs a cycle, or reset. -/
theorem eventEffect_cycleRegisters (e : Event) (s : State) :
    CycleRegistersKept s (eventEffect e s) ∨
      (∃ a, e = .command a 0x03#8) ∧ s.config.tickThreshold ≤ s.tickCount.toNat ∨ e = .reset := by
  cases e with
  | command a w =>
    rw [eventEffect]
    split
    next i hi =>
      obtain rfl := eq_encode_of_decode hi
      obtain hk | ⟨rfl, hb⟩ := effect_cycleRegisters i s
      · exact .inl hk
      · exact .inr (.inl ⟨⟨a, rfl⟩, (boundary_iff s).1 hb⟩)
    next => exact .inl (rejectWord_cycleRegistersKept s)
  | reset => exact .inr (.inr rfl)
  | read idx => exact .inl (performRead_cycleRegistersKept idx s)

/-- R163, R251: so does a step. -/
theorem step_cycleRegisters {s t : State} (h : step s = .next t) :
    CycleRegistersKept s t ∨ nextPerformsCycle s ∨ nextIsReset s := by
  obtain ⟨-, rfl⟩ | ⟨e, rest, hp, rfl⟩ := step_cases h
  · left; constructor <;> rfl
  · obtain hk | ⟨⟨a, rfl⟩, hb⟩ | rfl := eventEffect_cycleRegisters e (s.withPort rest)
    · exact .inl { hk with }
    · exact .inr (.inl ⟨⟨a, rest, hp⟩, hb⟩)
    · exact .inr (.inr ⟨rest, hp⟩)

end Sys2Proof.Machine
end

section
/-! SUPPORT. The error and the integral as numbers (R160, R161), and the ranges that the invariant gives (R168). -/

namespace Sys2Proof.Machine

/-- R160: the error of operands in their ranges. -/
theorem pidError_bounds {sp : Int} {r : Nat} (hlo : -255 ≤ sp) (hhi : sp ≤ 255) (hr : r ≤ 3932100) :
    -3932355 ≤ pidError sp r ∧ pidError sp r ≤ 255 := by
  rw [pidError]; omega

/-- R168: the error of a cycle, for a setpoint that the invariant allows. -/
theorem cycleError_bounds_of_inv {s : State} (hs : s.Inv) : -3932355 ≤ cycleError s ∧ cycleError s ≤ 255 :=
  pidError_bounds hs.setpoint.1.1 hs.setpoint.1.2 (cycleRpm_le s)

/-- R47, R168: PREV_ERROR lies in the range of an error. -/
theorem prevError_bounds_of_inv {s : State} (hs : s.Inv) :
    -3932355 ≤ s.prevError.toInt ∧ s.prevError.toInt ≤ 255 := by
  obtain ⟨⟨hlo, hhi⟩, -⟩ := hs.prevError
  have hr := hs.rpm_range
  omega

/-- R161: the sum saturated at 32 bits, and whether it was. -/
theorem pidIntegral_eq (i0 e : Int) :
    pidIntegral i0 e = (max (-2147483648) (min 2147483647 (i0 + e)),
      decide (i0 + e < -2147483648 ∨ 2147483647 < i0 + e)) :=
  Prod.ext (satSigned_32 _) (Bool.eq_iff_iff.2 ((integralSaturates_iff _).trans decide_eq_true_iff.symm))

end Sys2Proof.Machine
end

section
/-! SUPPORT. Measurement cycles without a pulse (R166). -/

namespace Sys2Proof.Machine

/-- What is performed first leaves the state that the rest finds (R68). -/
theorem performEvents_append {es : List Event} {s t : State} (h : performEvents es s = .next t) (fs : List Event) :
    performEvents (es ++ fs) s = performEvents fs t :=
  eventsSeeOnlyEarlierEvents.2 es fs s t h

/-- R120: n TICKs count n, modulo 2^16, and write nothing else but the answer. -/
theorem performEvents_replicate_tick (a : Agent) (n : Nat) (s : State) :
    ∃ t, performEvents (List.replicate n (.command a 0x02#8)) s = .next t ∧
      t.tickCount.toNat = (s.tickCount.toNat + n) % 65536 ∧
      t = { s with tickCount := t.tickCount, answer := t.answer } := by
  induction n generalizing s with
  | zero => exact ⟨s, rfl, (BitVec.toNat_mod_cancel s.tickCount).symm, rfl⟩
  | succ n ih =>
    obtain ⟨t, ht, hcount, hframe⟩ := ih (effect .tick s)
    have hone : (effect .tick s).tickCount.toNat = (s.tickCount.toNat + 1) % 65536 := toNat_increment s.tickCount
    have hfirst : eventEffect (.command a 0x02#8) s = effect .tick s := eventEffect_command_encode a .tick s
    refine ⟨t, ?_, ?_, hframe⟩
    · rw [List.replicate_succ, performEvents_cons, hfirst, ht]
    · rw [hcount, hone]; omega

/-- The state that a measurement cycle without a pulse leaves (R166): counters and RPM at 0, SETPOINT kept and added to
the integral, which saturates. -/
structure PulselessCycle (s t : State) : Prop where
  tickCount : t.tickCount = 0
  pulseCount : t.pulseCount = 0
  rpm : t.rpm = 0
  setpoint : t.setpoint = s.setpoint
  integral : t.integral.toInt = max (-2147483648) (min 2147483647 (s.integral.toInt + s.setpoint.toInt))

/-- R140, R160: without a pulse RPM is 0 and the error is SETPOINT. -/
theorem performCycle_pulselessCycle {s : State} (hp : s.pulseCount = 0) : PulselessCycle s (performCycle s) := by
  have hrpm : cycleRpm s = 0 := by rw [cycleRpm, hp, rpmOf_eq]; exact Nat.zero_div _
  exact
    { tickCount := performCycle_tickCount s
      pulseCount := performCycle_pulseCount s
      rpm := by rw [performCycle_rpm, hrpm]; rfl
      setpoint := performCycle_setpoint s
      integral := by
        rw [performCycle_integral_toInt, cycleIntegral_fst, cycleError_eq, hrpm, Nat.cast_zero, sub_zero] }

/-- R88, R166: TICK_THRESHOLD TICKs from TICK_COUNT = 0 reach the threshold without a wrap, so the EVAL performs a cycle. -/
theorem performEvents_pulselessCycle {s : State} (h0 : s.tickCount = 0) (hp : s.pulseCount = 0) :
    ∃ t, performEvents (List.replicate s.config.tickThreshold (.command .tickSource 0x02#8) ++
        [.command .poller 0x03#8]) s = .next t ∧ PulselessCycle s t := by
  obtain ⟨u, hu, hcount, hframe⟩ := performEvents_replicate_tick .tickSource s.config.tickThreshold s
  have hb : u.config.tickThreshold ≤ u.tickCount.toNat := by
    have hthreshold : s.config.tickThreshold < 65536 := Nat.lt_succ_of_le s.config.tickThreshold_range.2
    rw [performEvents_config hu, hcount, h0, BitVec.ofNat_eq_ofNat, BitVec.toNat_zero, Nat.zero_add,
      Nat.mod_eq_of_lt hthreshold]
  have heval : eventEffect (.command .poller 0x03#8) u = performCycle u :=
    (eventEffect_command_encode .poller .eval u).trans (if_pos ((boundary_iff u).2 hb))
  have hpulse : u.pulseCount = 0 := by rw [hframe]; exact hp
  have hc := performCycle_pulselessCycle hpulse
  refine ⟨performCycle u, ?_, { hc with setpoint := ?_, integral := ?_ }⟩
  · rw [performEvents_append hu, performEvents_cons, heval, performEvents_nil]
  · rw [hc.setpoint, hframe]
  · rw [hc.integral, hframe]

theorem cycleEvents_succ (c : Config) (m : Nat) :
    cycleEvents c (m + 1) = cycleEvents c m ++
      (List.replicate c.tickThreshold (.command .tickSource 0x02#8) ++ [.command .poller 0x03#8]) := by
  rw [cycleEvents, cycleEvents, List.replicate_succ', List.flatten_concat]

/-- R161: steps `v` of one sign, saturated one by one from a value in range, end where their sum ends, saturated once. -/
theorem saturate_add_of_same_sign {i v p : Int} (hi : -2147483648 ≤ i ∧ i ≤ 2147483647)
    (hsign : 0 ≤ p ∧ 0 ≤ v ∨ p ≤ 0 ∧ v ≤ 0) :
    max (-2147483648) (min 2147483647 (max (-2147483648) (min 2147483647 (i + p)) + v)) =
      max (-2147483648) (min 2147483647 (i + (p + v))) := by
  omega

/-- A multiple of a step has the step's sign. -/
theorem natCast_mul_same_sign (m : Nat) (v : Int) : 0 ≤ m * v ∧ 0 ≤ v ∨ m * v ≤ 0 ∧ v ≤ 0 := by
  have hm : (0 : Int) ≤ m := Int.natCast_nonneg m
  rcases le_total 0 v with hv | hv
  · exact .inl ⟨mul_nonneg hm hv, hv⟩
  · exact .inr ⟨mul_nonpos_of_nonneg_of_nonpos hm hv, hv⟩

end Sys2Proof.Machine
end

section
/-! PROOFS. The statements of 43_pid.md: the controller (R160 to R163), its output (R164, R165) and its ranges and windup
(R166, R168). -/

namespace Sys2Proof.Machine

/-- Settles O32: a cycle adds its error, which PREV_ERROR holds afterwards, and INT_SAT keeps whether it ever saturated. -/
theorem integralAccumulatesAndSaturates : Obligations.IntegralAccumulatesAndSaturates := by
  refine ⟨pidIntegral_eq, fun s h => ⟨performCycle s, exec_eval_of_boundary h, ?_, ?_⟩⟩
  · rw [performCycle_integral_toInt, performCycle_prevError_toInt, cycleIntegral_fst]
  · rw [performCycle_intSat, performCycle_prevError_toInt, cycleIntegral_snd, Bool.or_eq_true, decide_eq_true_iff]

/-- Settles O34: the statement's `raw` is the cycle's, since PREV_ERROR and INTEGRAL hold afterwards what it was formed
from. -/
theorem outputSaturatesAndOutSatReports : Obligations.OutputSaturatesAndOutSatReports := by
  refine ⟨saturate_eq, fun s h => ⟨performCycle s, exec_eval_of_boundary h, ?_⟩⟩
  intro raw
  have hraw : cycleRaw s = raw := by
    rw [cycleRaw_eq, ← performCycle_integral_toInt, ← performCycle_prevError_toInt]
  rw [← hraw]
  constructor
  · rw [performCycle_output_toInt, cycleOutput_eq]
  · rw [performCycle_outSat, outputSaturates_eq_decide]

/-- Settles O35, by induction on the number of cycles: the last one finds both counters at 0 and the integral moved by the
cycles before it. -/
theorem integralWindsUpWithoutPulses : Obligations.IntegralWindsUpWithoutPulses := by
  intro s m htick hpulse
  have hrange := word32_toInt_bounds s.integral
  induction m with
  | zero => exact ⟨s, rfl, by omega, rfl, htick, hpulse, fun h => absurd h (Nat.lt_irrefl 0)⟩
  | succ m ih =>
    obtain ⟨u, hu, hintegral, hsetpoint, hu_tick, hu_pulse, -⟩ := ih
    obtain ⟨t, ht, hc⟩ := performEvents_pulselessCycle hu_tick hu_pulse
    refine ⟨t, ?_, ?_, hc.setpoint.trans hsetpoint, hc.tickCount, hc.pulseCount, fun _ => hc.rpm⟩
    · rw [cycleEvents_succ, performEvents_append hu, ← performEvents_config hu, ht]
    · rw [hc.integral, hintegral, hsetpoint,
        saturate_add_of_same_sign hrange (natCast_mul_same_sign m s.setpoint.toInt), Nat.cast_succ, add_one_mul]

/-- Settles O36: both registers are among those that only a performed cycle or reset changes. -/
theorem controllerStatePersists : Obligations.ControllerStatePersists := by
  intro s t h hne
  obtain hk | hcause := step_cycleRegisters h
  · exact absurd hne (by simp [hk.integral, hk.prevError])
  · exact hcause

/-- Settles O37: the error and PREV_ERROR are bounded by the invariant, the other values by them, and the quotient by 20 is
monotone. -/
theorem cycleValuesStayInRange : Obligations.CycleValuesStayInRange := by
  intro s hs e d i n
  have he : -3932355 ≤ e ∧ e ≤ 255 := cycleError_bounds_of_inv hs
  have hprev := prevError_bounds_of_inv hs
  have hd : -3932610 ≤ d ∧ d ≤ 3932610 := by omega
  have hi : -2147483648 ≤ i ∧ i ≤ 2147483647 := by
    have h : i = _ := cycleIntegral_fst s
    omega
  have hn : -4377547006 ≤ n ∧ n ≤ 4298905004 := by omega
  have hraw : cycleRaw s = n.tdiv 20 := cycleRaw_eq s
  refine ⟨he, hd, hi, hn, hraw, ?_⟩
  rw [hraw]
  exact ⟨Int.tdiv_le_tdiv (by decide) hn.1, Int.tdiv_le_tdiv (by decide) hn.2⟩

/-- Settles O31: PREV_ERROR and RPM hold the error and the speed that the cycle computed. -/
theorem errorIsSetpointMinusRpm : Obligations.ErrorIsSetpointMinusRpm := by
  refine ⟨fun sp r => ⟨rfl, pidError_bounds⟩, fun s h => ⟨performCycle s, exec_eval_of_boundary h, ?_⟩⟩
  rw [performCycle_prevError_toInt, performCycle_rpm_toNat, cycleError_eq]

end Sys2Proof.Machine
end

section
/-! SUPPORT. What a step leaves when its event is an EVAL that performs a cycle, or reset (R182), and the cycle of a block
with SATURATE = true (R183). -/

namespace Sys2Proof.Machine

/-- R122: a step whose event is an EVAL that performs a cycle performs it on the state in which the EVAL is consumed. -/
theorem eq_performCycle_of_step {s t : State} (h : step s = .next t) (hc : nextPerformsCycle s) :
    ∃ rest, t = performCycle (s.withPort rest) := by
  obtain ⟨⟨a, rest, hp⟩, hb⟩ := hc
  have heval : eventEffect (.command a 0x03#8) (s.withPort rest) = performCycle (s.withPort rest) :=
    (eventEffect_command_encode a .eval _).trans (if_pos ((boundary_iff (s.withPort rest)).2 hb))
  rw [step_of_port_cons hp, heval] at h
  exact ⟨rest, (Host.Outcome.next.inj h).symm⟩

/-- R250: a step whose event is reset resets the state in which it is consumed. -/
theorem eq_performReset_of_step {s t : State} (h : step s = .next t) (hr : nextIsReset s) :
    ∃ rest, t = performReset (s.withPort rest) := by
  obtain ⟨rest, hp⟩ := hr
  rw [step_of_port_cons hp] at h
  exact ⟨rest, (Host.Outcome.next.inj h).symm⟩

/-- R180: DIR is the sign of OUTPUT after a cycle, in both settings of SATURATE. -/
theorem performCycle_dir_eq_sign_output (s : State) :
    (performCycle s).dir =
      if 0 < (performCycle s).output.toInt then 0b01#2
      else if (performCycle s).output.toInt < 0 then 0b10#2 else 0b00#2 := by
  rw [performCycle_dir, (cycleActuation_cases s).1, performCycle_output_toInt]

/-- R183: with SATURATE = true a cycle leaves |OUTPUT| in PWM_MAG, and FAULT_MAG as it was. -/
theorem performCycle_mag_of_saturate {s : State} (hsat : s.config.saturate = true) :
    (performCycle s).pwmMag.toNat = (performCycle s).output.toInt.natAbs ∧
      (performCycle s).faultMag = s.faultMag := by
  rw [performCycle_output_toInt]
  exact performCycle_mag_of_natAbs_le (cycleOutput_natAbs_le_of_saturate hsat)

/-- R183: with SATURATE = true no step sets FAULT_MAG. -/
theorem step_faultMag_of_saturate {s t : State} (hsat : s.config.saturate = true) (h : step s = .next t)
    (hf : s.faultMag = false) : t.faultMag = false := by
  obtain hk | hc | hr := step_cycleRegisters h
  · exact hk.faultMag.trans hf
  · obtain ⟨rest, rfl⟩ := eq_performCycle_of_step h hc
    exact (performCycle_mag_of_saturate (s := s.withPort rest) hsat).2.trans hf
  · obtain ⟨rest, rfl⟩ := eq_performReset_of_step h hr
    exact performReset_faultMag (s.withPort rest)

end Sys2Proof.Machine
end

section
/-! PROOFS. The statements of 44_actuator.md: the mapper (R180, R181), the actuator outputs (R182) and SATURATE = true
(R183). -/

namespace Sys2Proof.Machine

/-- Settles O38: the two cases of Actuate exclude each other at the bound 255. -/
theorem actuateMapsSignAndMagnitude : Obligations.ActuateMapsSignAndMagnitude := by
  intro draw v
  obtain ⟨hdir, ⟨hle, hover, hmag⟩ | ⟨hgt, hover, hmag⟩⟩ := actuate_cases draw v
  · exact ⟨hdir, by simpa [hover] using hle, fun _ => hmag, fun hgt => absurd hle hgt.not_ge⟩
  · exact ⟨hdir, by simpa [hover] using hgt, fun hle => absurd hgt hle.not_gt, fun _ => hmag⟩

/-- Settles O40: the outputs are functions of PWM_MAG and DIR, which are among the registers that only a performed cycle
or reset changes. -/
theorem actuatorOutputsHoldBetweenCycles : Obligations.ActuatorOutputsHoldBetweenCycles := by
  refine ⟨fun s => ⟨rfl, rfl, rfl⟩, fun s t h hne => ?_⟩
  obtain hk | hcause := step_cycleRegisters h
  · exact absurd hne
      (by simp [State.magnitudeOutput, State.forwardLine, State.reverseLine, hk.pwmMag, hk.dir])
  · exact hcause

/-- Settles O41: a saturated output fits the magnitude, so a cycle maps it whole; no other event raises FAULT_MAG. -/
theorem saturationKeepsFaultMagClear : Obligations.SaturationKeepsFaultMagClear := by
  intro s t hsat h
  refine ⟨cycleActuation_overrange_of_saturate hsat, step_faultMag_of_saturate hsat h, fun hc => ?_⟩
  obtain ⟨rest, rfl⟩ := eq_performCycle_of_step h hc
  obtain ⟨hmag, -⟩ := performCycle_mag_of_saturate (s := s.withPort rest) hsat
  exact ⟨hmag, performCycle_dir_eq_sign_output (s.withPort rest)⟩

end Sys2Proof.Machine
end

section
/-! SUPPORT. SETPOINT as a number along a list of commands (R200 to R203). -/

namespace Sys2Proof.Machine

/-- What a command makes of the value `v` of SETPOINT (R200, R201); no other command writes it. -/
def nextSetpoint (v : Int) (i : Instr) : Int :=
  match i with
  | .inc => max (-255) (min 255 (v + 25))
  | .dec => max (-255) (min 255 (v - 25))
  | .sample0 | .sample1 | .tick | .eval => v

theorem nextSetpoint_inc (v : Int) : nextSetpoint v .inc = max (-255) (min 255 (v + 25)) := rfl

theorem nextSetpoint_dec (v : Int) : nextSetpoint v .dec = max (-255) (min 255 (v + -25)) := rfl

/-- What a list of commands makes of the value `v` of SETPOINT, the first command first. -/
def setpointAfter (v : Int) (is : List Instr) : Int := is.foldl nextSetpoint v

theorem effect_setpoint_toInt (i : Instr) (s : State) :
    (effect i s).setpoint.toInt = nextSetpoint s.setpoint.toInt i := by
  have hkept (hi : ¬(i = .inc ∨ i = .dec)) : (effect i s).setpoint = s.setpoint :=
    not_imp_comm.1 inc_or_dec_of_effect_setpoint_ne hi
  cases i with
  | inc => exact adjustSetpoint_setpoint_toInt spStep s
  | dec => exact adjustSetpoint_setpoint_toInt (-spStep) s
  | sample0 | sample1 | tick | eval => exact congrArg BitVec.toInt (hkept (by simp))

/-- Performing a list of commands moves SETPOINT as `setpointAfter` says (R68). -/
theorem performEvents_commandEvents (is : List Instr) (s : State) :
    ∃ t, performEvents (commandEvents is) s = .next t ∧
      t.setpoint.toInt = setpointAfter s.setpoint.toInt is := by
  induction is generalizing s with
  | nil => exact ⟨s, rfl, rfl⟩
  | cons i is ih =>
    obtain ⟨t, ht, hsp⟩ := ih (effect i s)
    have hfirst : eventEffect (.command (presenter i) (encode i)) s = effect i s :=
      eventEffect_command_encode (presenter i) i s
    refine ⟨t, ?_, ?_⟩
    · rw [commandEvents, List.map_cons, performEvents_cons, hfirst]; exact ht
    · rw [hsp, effect_setpoint_toInt]; rfl

/-- Steps `d` of one sign, clamped one by one, end where their sum ends, clamped once. -/
theorem setpointAfter_replicate {i : Instr} {d : Int} (hi : ∀ v, nextSetpoint v i = max (-255) (min 255 (v + d)))
    (n : Nat) {v : Int} (hv : -255 ≤ v ∧ v ≤ 255) :
    setpointAfter v (List.replicate n i) = max (-255) (min 255 (v + n * d)) := by
  induction n with
  | zero =>
    have hnil : setpointAfter v [] = v := rfl
    rw [List.replicate_zero, hnil, Nat.cast_zero, zero_mul]
    omega
  | succ n ih =>
    have hlast : setpointAfter v (List.replicate (n + 1) i) =
        nextSetpoint (setpointAfter v (List.replicate n i)) i := by
      rw [List.replicate_succ', setpointAfter, List.foldl_concat]; rfl
    have hsign := natCast_mul_same_sign n d
    rw [hlast, ih, hi, Nat.cast_succ, add_one_mul]
    omega

/-- From 0, a run of one command and then a run of another. -/
theorem setpointAfter_replicate_append {i j : Instr} {d e : Int}
    (hi : ∀ v, nextSetpoint v i = max (-255) (min 255 (v + d)))
    (hj : ∀ v, nextSetpoint v j = max (-255) (min 255 (v + e))) (m n : Nat) :
    setpointAfter 0 (List.replicate m i ++ List.replicate n j) =
      max (-255) (min 255 (max (-255) (min 255 (m * d)) + n * e)) := by
  have hsplit : setpointAfter 0 (List.replicate m i ++ List.replicate n j) =
      setpointAfter (setpointAfter 0 (List.replicate m i)) (List.replicate n j) := List.foldl_append
  rw [hsplit, setpointAfter_replicate hi m (by decide), zero_add, setpointAfter_replicate hj n (by omega)]

/-- R202: INC and DEC lead from a reachable value to reachable values only. -/
theorem setpointAfter_reachable {is : List Instr} (his : ∀ i ∈ is, i = .inc ∨ i = .dec) {v : Int}
    (hv : ReachableSetpoint v) : ReachableSetpoint (setpointAfter v is) := by
  induction is generalizing v with
  | nil => exact hv
  | cons i is ih =>
    obtain ⟨hi, his⟩ := List.forall_mem_cons.1 his
    refine ih his ?_
    obtain rfl | rfl := hi
    · rw [nextSetpoint_inc]; exact reachableSetpoint_clamp hv (.inl rfl)
    · rw [nextSetpoint_dec]; exact reachableSetpoint_clamp hv (.inr rfl)

/-- R202: a multiple of 25 is reached downwards from 250, the values off them downwards from 255, where INC clamps, and
upwards from -255, where DEC does. -/
theorem exists_setpointAfter_eq {v : Int} (hv : ReachableSetpoint v) :
    ∃ is : List Instr, (∀ i ∈ is, i = .inc ∨ i = .dec) ∧ setpointAfter 0 is = v := by
  obtain ⟨⟨hlo, hhi⟩, h0 | h5 | h20⟩ := hv
  · refine ⟨List.replicate 10 .inc ++ List.replicate ((250 - v) / 25).toNat .dec, by grind, ?_⟩
    rw [setpointAfter_replicate_append nextSetpoint_inc nextSetpoint_dec]
    omega
  · refine ⟨List.replicate 11 .inc ++ List.replicate ((255 - v) / 25).toNat .dec, by grind, ?_⟩
    rw [setpointAfter_replicate_append nextSetpoint_inc nextSetpoint_dec]
    omega
  · refine ⟨List.replicate 11 .dec ++ List.replicate ((255 + v) / 25).toNat .inc, by grind, ?_⟩
    rw [setpointAfter_replicate_append nextSetpoint_dec nextSetpoint_inc]
    omega

end Sys2Proof.Machine
end

section
/-! PROOFS. The statements of 45_setpoint.md: INC (R200), DEC (R201), the values that they reach (R202) and their order
(R203). -/

namespace Sys2Proof.Machine

/-- Settles O42: INC adds one step to SETPOINT and clamps. -/
theorem incRaisesTheSetpoint : Obligations.IncRaisesTheSetpoint :=
  ⟨decode_encode .inc, fun s => ⟨effect .inc s, rfl, effect_setpoint_toInt .inc s, rfl, rfl⟩⟩

/-- Settles O43: DEC takes one step from SETPOINT and clamps. -/
theorem decLowersTheSetpoint : Obligations.DecLowersTheSetpoint :=
  ⟨decode_encode .dec, fun s => ⟨effect .dec s, rfl, effect_setpoint_toInt .dec s, rfl, rfl⟩⟩

/-- Settles O44: every list of INCs and DECs keeps to the reachable values, and two runs of one command reach each. -/
theorem reachableSetpointsAreExact : Obligations.ReachableSetpointsAreExact := by
  intro s v hs
  have hstart : s.setpoint.toInt = 0 := by rw [hs]; rfl
  constructor
  · rintro ⟨is, t, his, ht, rfl⟩
    obtain ⟨u, hu, hsp⟩ := performEvents_commandEvents is s
    obtain rfl : t = u := Host.Outcome.next.inj (ht.symm.trans hu)
    rw [hsp, hstart]
    exact setpointAfter_reachable his reachableSetpoint_zero
  · intro hv
    obtain ⟨is, his, hreach⟩ := exists_setpointAfter_eq hv
    obtain ⟨t, ht, hsp⟩ := performEvents_commandEvents is s
    exact ⟨is, t, his, ht, by rw [hsp, hstart, hreach]⟩

/-- Settles O45: the steps of n INCs are of one sign, so they clamp as their sum does. -/
theorem repeatedIncClampsAtTheMaximum : Obligations.RepeatedIncClampsAtTheMaximum := by
  intro s n hlo hhi
  obtain ⟨t, ht, hsp⟩ := performEvents_commandEvents (List.replicate n .inc) s
  refine ⟨t, ht, ?_⟩
  rw [hsp, setpointAfter_replicate nextSetpoint_inc n ⟨hlo, hhi⟩]
  omega

/-- Settles O46: of the two clamped steps only the first can meet a bound, 255 for INC and -255 for DEC. -/
theorem incDecOrderMattersOnlyNearABound : Obligations.IncDecOrderMattersOnlyNearABound := by
  intro s hlo hhi
  obtain ⟨t, ht, ht_sp⟩ := performEvents_commandEvents [.inc, .dec] s
  obtain ⟨u, hu, hu_sp⟩ := performEvents_commandEvents [.dec, .inc] s
  refine ⟨t, u, ht, hu, ?_, ?_⟩
  · simp only [ht_sp, setpointAfter, List.foldl, nextSetpoint]; omega
  · simp only [hu_sp, setpointAfter, List.foldl, nextSetpoint]; omega

end Sys2Proof.Machine
end

section
/-! SUPPORT. The presenting agent (R231), the output of a cycle that is passed through (R164), and power-on by the ranges of
its parameters (R224). -/

namespace Sys2Proof.Machine

/-- R231: an event's effect does not depend on the agent that presents it. -/
theorem eventEffect_withoutAgent (e : Event) (s : State) : eventEffect (withoutAgent e) s = eventEffect e s := by
  cases e with
  | command a w => rfl
  | reset => rfl
  | read idx => rfl

theorem performEvents_map_withoutAgent (es : List Event) (s : State) :
    performEvents (es.map withoutAgent) s = performEvents es s := by
  induction es generalizing s with
  | nil => rfl
  | cons e es ih => rw [List.map_cons, performEvents_cons, performEvents_cons, eventEffect_withoutAgent, ih]

/-- R164: with SATURATE = false the output of a cycle is its raw value. -/
theorem cycleOutput_of_not_saturate {s : State} (h : s.config.saturate = false) : cycleOutput s = cycleRaw s := by
  rw [cycleOutput_eq, h]
  rfl

/-- R224: parameters in range are those of a configuration, and the block is powered on in its initial state. -/
theorem powerOn_of_wellFormed {p : Parameters} (h : p.WellFormed) :
    ∃ c : Config, c.ppr = p.ppr ∧ c.tickThreshold = p.tickThreshold ∧ c.saturate = p.saturate ∧
      powerOn p = .next (State.initial c) := by
  obtain ⟨hppr, hthreshold⟩ := h
  refine ⟨⟨p.ppr, p.tickThreshold, p.saturate, hppr, hthreshold⟩, rfl, rfl, rfl, ?_⟩
  rw [powerOn, Config.ofParameters, dif_pos ⟨hppr, hthreshold⟩]

/-- R224: parameters out of range are refused. -/
theorem powerOn_of_not_wellFormed {p : Parameters} (h : ¬ p.WellFormed) :
    powerOn p = .refused .invalidConfiguration := by
  rw [powerOn, Config.ofParameters, dif_neg h]

end Sys2Proof.Machine
end

section
/-! PROOFS. The statements of 60_exceptions.md: no fault stops the block (R220, R236), illegal words (R222), overrange cycles
(R223), bad configurations (R224) and presenters (R231). -/

namespace Sys2Proof.Machine

/-- Settles O11: both lists perform as the list with the agents forgotten does. -/
theorem presenterMakesNoDifference : Obligations.PresenterMakesNoDifference := by
  intro es fs s h
  rw [← performEvents_map_withoutAgent es, h, performEvents_map_withoutAgent]

/-- Settles O39: with SATURATE = false the cycle's output is the raw value, which is out of the mapper's range and not 0;
with SATURATE = true no cycle is overrange. -/
theorem overrangeRaisesFaultMag : Obligations.OverrangeRaisesFaultMag := by
  intro s hb hraw
  refine ⟨performCycle s, exec_eval_of_boundary hb, performCycle_answer s, ?_, fun hsat => ?_,
    fun hsat => (performCycle_mag_of_saturate hsat).2⟩
  · rw [performCycle_outSat, outputSaturates_iff]
    exact hraw
  · have hv := cycleOutput_of_not_saturate hsat
    refine ⟨performCycle_faultMag_of_lt_natAbs (hv ▸ hraw), (performCycle_output_toInt s).trans hv, ?_⟩
    rw [performCycle_dir, (cycleActuation_cases s).1, hv]
    split_ifs with hpos hneg
    · rfl
    · rfl
    · omega

/-- Settles O9: the step of a word that does not decode. -/
theorem illegalWordSetsFaultIllegal : Obligations.IllegalWordSetsFaultIllegal :=
  fun _ _ _ _ _ hp hd => step_of_decode_error hp hd

/-- Settles O10: the step with nothing presented. -/
theorem idleStepChangesNothing : Obligations.IdleStepChangesNothing := fun _ hp => step_of_port_nil hp

/-- Settles O12: a step waits, or performs the next event, and either answers a next state. -/
theorem everyStepAnswersNext : Obligations.EveryStepAnswersNext := by
  intro s
  cases hp : s.port with
  | nil => exact ⟨s, step_of_port_nil hp⟩
  | cons e rest => exact ⟨eventEffect e (s.withPort rest), step_of_port_cons hp⟩

/-- Settles O56: the two cases are parameters that are not well formed and parameters that are. -/
theorem badConfigurationsAreRefused : Obligations.BadConfigurationsAreRefused := by
  intro p
  constructor
  · intro hout
    have hbad : ¬ p.WellFormed := by rintro ⟨hppr, hthreshold⟩; omega
    exact powerOn_of_not_wellFormed hbad
  · intro hp hp' ht ht'
    exact powerOn_of_wellFormed ⟨⟨hp, hp'⟩, ⟨ht, ht'⟩⟩

end Sys2Proof.Machine
end

section
/-! SUPPORT. The neutral outputs (R252), and power-on by the parameters of a configuration (R250). -/

namespace Sys2Proof.Machine

/-- R252: the registers that the actuator outputs show hold magnitude 0 and the neutral direction. -/
structure OutputsNeutral (s : State) : Prop where
  pwmMag : s.pwmMag = 0
  dir : s.dir = 0b00#2

/-- R40, R41: neutral outputs, as the magnitude output and the two lines read. -/
theorem OutputsNeutral.outputs {s : State} (h : OutputsNeutral s) :
    s.magnitudeOutput = 0 ∧ s.forwardLine = false ∧ s.reverseLine = false := by
  simp [State.magnitudeOutput, State.forwardLine, State.reverseLine, h.pwmMag, h.dir]

theorem performReset_outputsNeutral (s : State) : OutputsNeutral (performReset s) :=
  ⟨performReset_pwmMag s, performReset_dir s⟩

/-- R182, R252: neutral outputs stay neutral at every event that does not respond cyc = 1. -/
theorem eventEffect_outputsNeutral {e : Event} {s : State} (hs : OutputsNeutral s)
    (ha : (eventEffect e s).answer ≠ .cyc true) : OutputsNeutral (eventEffect e s) := by
  obtain hk | ⟨⟨a, rfl⟩, hb⟩ | rfl := eventEffect_cycleRegisters e s
  · exact ⟨hk.pwmMag.trans hs.pwmMag, hk.dir.trans hs.dir⟩
  · have hcyc : (eventEffect (.command a 0x03#8) s).answer = .cyc true := by
      rw [eventEffect_command_answer, decide_eq_true ⟨rfl, hb⟩]
    exact absurd hcyc ha
  · exact performReset_outputsNeutral s

/-- R252: neutral outputs stay neutral over any events that perform no cycle. -/
theorem performEvents_outputsNeutral {es : List Event} {s t : State} (hs : OutputsNeutral s) (hn : NoCycle es s)
    (ht : performEvents es s = .next t) : OutputsNeutral t := by
  induction es generalizing s with
  | nil => obtain rfl : s = t := Host.Outcome.next.inj ht; exact hs
  | cons e es ih =>
    obtain ⟨ha, hes⟩ := (noCycle_cons e es s).1 hn
    exact ih (eventEffect_outputsNeutral hs ha) hes (performEvents_cons e es s ▸ ht)

/-- R6, R224: a configuration is the one that its own parameters ask for. -/
theorem ofParameters_of_config (c : Config) :
    Config.ofParameters ⟨c.ppr, c.tickThreshold, c.saturate⟩ = some c :=
  dif_pos ⟨c.ppr_range, c.tickThreshold_range⟩

/-- R250: power-on with a configuration's parameters leaves its initial state. -/
theorem powerOn_of_config (c : Config) :
    powerOn ⟨c.ppr, c.tickThreshold, c.saturate⟩ = .next (State.initial c) := by
  rw [powerOn, ofParameters_of_config]

end Sys2Proof.Machine
end

section
/-! PROOFS. The statements of 70_reset_and_hazards.md: reset (R250) and the outputs until the first cycle (R252). -/

namespace Sys2Proof.Machine

/-- Settles O54: reset makes the outputs neutral, and the events after it, none of which performs a cycle, leave them so. -/
theorem outputsAreNeutralAfterReset : Obligations.OutputsAreNeutralAfterReset := by
  intro es s hn
  obtain ⟨-, hes⟩ := (noCycle_cons .reset es s).1 hn
  have ht := performEvents_eq_foldl es (performReset s)
  have hneutral := performEvents_outputsNeutral (performReset_outputsNeutral s) hes ht
  exact ⟨_, (performEvents_cons .reset es s).trans ht, hneutral.outputs⟩

/-- Settles O53: power-on leaves the initial state, whose registers are those of `performReset`; the reset event performs
`performReset` on the state in which it is consumed. -/
theorem resetEventSetsEveryRegister : Obligations.ResetEventSetsEveryRegister := by
  refine ⟨fun c s => powerOn_of_config c, fun s rest hp => ?_⟩
  refine ⟨performReset (s.withPort rest), step_of_port_cons hp, ?_⟩
  simp

end Sys2Proof.Machine
end
